-- ==== Sys2Proof/Word.lean ====
section
/-! DEFINITION. The word and index types of the block. -/

namespace Sys2Proof

/-- One operand word of the command port: `W` = 16 bits (R7, R80). -/
abbrev Word := BitVec 16

/-- A channel index, 0..7 (R21, `N_CH` = 8). -/
abbrev Chan := Fin 8

/-- A stored buffer offset: 14 bits (R29). -/
abbrev Offset := BitVec 14

/-- An interrupt priority level: 3 bits (R35). -/
abbrev Level := BitVec 3

end Sys2Proof
end

