-- ==== Sys2Proof/Syntax.lean ====
section
/-! DEFINITION. The eleven commands (R83) and the enumerations their operands name (R82). -/

namespace Sys2Proof

/-- `SIZE`, the data unit size (R23). -/
inductive DataSize where
  | byte
  | word
deriving DecidableEq, Repr

/-- `DIR`, the transfer direction (R24). -/
inductive Direction where
  | peripheralToMemory
  | memoryToPeripheral
deriving DecidableEq, Repr

/-- `TIMING`, the interrupt timing (R25). -/
inductive Timing where
  | half
  | full
deriving DecidableEq, Repr

/-- `AMODE`, the addressing mode: one of three, which the source does not name (R27). -/
inductive AddrMode where
  | am0
  | am1
  | am2
deriving DecidableEq, Repr

/-- `MODE`, the operating mode (R28). -/
inductive OpMode where
  | continuous
  | oneShot
  | continuousPingPong
  | oneShotPingPong
deriving DecidableEq, Repr

/-- The thirteen operand words of CONFIGURE, in the order of its signature (R81, R110). -/
structure ConfigOperands where
  channel : Word
  requestSource : Word
  dataSize : Word
  direction : Word
  interruptTiming : Word
  nullWriteMode : Word
  addressingMode : Word
  operatingMode : Word
  bufferA : Word
  bufferB : Word
  peripheralAddress : Word
  transferCount : Word
  callback : Word
deriving DecidableEq, Repr

/-- One command: one constructor per row of the opcode table (R83). Operands are whole words, legal or not (R82). -/
inductive Instr where
  | configure (o : ConfigOperands)
  | translate (address size : Word)
  | inhibit
  | release
  | mayIdle
  | idle
  | enable (channel : Word)
  | disable (channel : Word)
  | start (channel : Word)
  | setPri (channel priority : Word)
  | complete (channel : Word)
deriving DecidableEq, Repr

/-- Why a packet is no command (R85). -/
inductive DecodeError where
  /-- No header word at all: the port never delivers this (R80). -/
  | emptyPacket
  /-- `header[15:4]` is not 0. -/
  | reservedBits
  /-- `header[3:0]` is 0x0 or 0xC..0xF. -/
  | illegalOpcode
  /-- Not the number of words the opcode calls for: the port never delivers this (R85). -/
  | wrongLength
deriving DecidableEq, Repr

end Sys2Proof
end

