-- ==== Sys2Proof/Decode.lean ====
section
/-! DEFINITION. The command packets (R80 to R88): decoder, encoder, and the host's numbering of a packet's bits. -/

namespace Sys2Proof

/-- Opcodes (R83). -/
def opConfigure : BitVec 4 := 0x1
@[inherit_doc opConfigure] def opTranslate : BitVec 4 := 0x2
@[inherit_doc opConfigure] def opInhibit : BitVec 4 := 0x3
@[inherit_doc opConfigure] def opRelease : BitVec 4 := 0x4
@[inherit_doc opConfigure] def opMayIdle : BitVec 4 := 0x5
@[inherit_doc opConfigure] def opIdle : BitVec 4 := 0x6
@[inherit_doc opConfigure] def opEnable : BitVec 4 := 0x7
@[inherit_doc opConfigure] def opDisable : BitVec 4 := 0x8
@[inherit_doc opConfigure] def opStart : BitVec 4 := 0x9
@[inherit_doc opConfigure] def opSetPri : BitVec 4 := 0xA
@[inherit_doc opConfigure] def opComplete : BitVec 4 := 0xB

/-- `header[3:0]`, the opcode (R80). -/
def headerOpcode (h : Word) : BitVec 4 := h.extractLsb' 0 4

/-- `header[15:4]`, reserved, must be 0 (R80). -/
def headerReserved (h : Word) : BitVec 12 := h.extractLsb' 4 12

/-- Format `Z`: no operand (R81). -/
def formatZ (i : Instr) : List Word → Except DecodeError Instr
  | [] => .ok i
  | _ :: _ => .error .wrongLength

/-- Format `C`: one operand, `channel` (R81). -/
def formatC (command : Word → Instr) : List Word → Except DecodeError Instr
  | [channel] => .ok (command channel)
  | _ => .error .wrongLength

/-- Formats `CP` and `T`: two operands (R81). -/
def formatTwo (command : Word → Word → Instr) : List Word → Except DecodeError Instr
  | [first, second] => .ok (command first second)
  | _ => .error .wrongLength

/-- Format `CFG`: the thirteen operands of CONFIGURE (R81). -/
def formatCfg : List Word → Except DecodeError Instr
  | [ch, rs, ds, dir, it, nw, am, om, ba, bb, pa, tc, cb] =>
    .ok (.configure ⟨ch, rs, ds, dir, it, nw, am, om, ba, bb, pa, tc, cb⟩)
  | _ => .error .wrongLength

/-- The operand words after a header with this opcode (R83, R85). -/
def decodeOperands (op : Nat) (ops : List Word) : Except DecodeError Instr :=
  match op with
  | 0x1 => formatCfg ops
  | 0x2 => formatTwo .translate ops
  | 0x3 => formatZ .inhibit ops
  | 0x4 => formatZ .release ops
  | 0x5 => formatZ .mayIdle ops
  | 0x6 => formatZ .idle ops
  | 0x7 => formatC .enable ops
  | 0x8 => formatC .disable ops
  | 0x9 => formatC .start ops
  | 0xA => formatTwo .setPri ops
  | 0xB => formatC .complete ops
  | _ => .error .illegalOpcode

/-- The command a packet stands for (R80, R85): total, rejecting by name. -/
def decode : List Word → Except DecodeError Instr
  | [] => .error .emptyPacket
  | h :: ops => if headerReserved h ≠ 0 then .error .reservedBits else decodeOperands (headerOpcode h).toNat ops

/-- The opcode of a command (R83); it stands for `source_location` in an error report (R201). -/
def Instr.opcode : Instr → BitVec 4
  | .configure _ => opConfigure
  | .translate _ _ => opTranslate
  | .inhibit => opInhibit
  | .release => opRelease
  | .mayIdle => opMayIdle
  | .idle => opIdle
  | .enable _ => opEnable
  | .disable _ => opDisable
  | .start _ => opStart
  | .setPri _ _ => opSetPri
  | .complete _ => opComplete

/-- The operand words of a command, in signature order (R81). -/
def Instr.operandWords : Instr → List Word
  | .configure o =>
    [o.channel, o.requestSource, o.dataSize, o.direction, o.interruptTiming, o.nullWriteMode, o.addressingMode,
      o.operatingMode, o.bufferA, o.bufferB, o.peripheralAddress, o.transferCount, o.callback]
  | .translate address size => [address, size]
  | .inhibit => []
  | .release => []
  | .mayIdle => []
  | .idle => []
  | .enable channel => [channel]
  | .disable channel => [channel]
  | .start channel => [channel]
  | .setPri channel priority => [channel, priority]
  | .complete channel => [channel]

/-- The packet of a command (R80). -/
def encode (i : Instr) : List Word := i.opcode.setWidth 16 :: i.operandWords

/-- How many words the port delivers after this header, the header included (R80, R81); 1 for an illegal header. -/
def packetLength (h : Word) : Nat :=
  if headerReserved h ≠ 0 then 1
  else match (headerOpcode h).toNat with
    | 0x1 => 14
    | 0x2 => 3
    | 0x3 => 1
    | 0x4 => 1
    | 0x5 => 1
    | 0x6 => 1
    | 0x7 => 2
    | 0x8 => 2
    | 0x9 => 2
    | 0xA => 3
    | 0xB => 2
    | _ => 1

/-- Word `n` of a packet whose bits are numbered from the least significant bit of the header on (log entry 5). -/
def tableWord (w n : Nat) : Word := BitVec.ofNat 16 (w >>> (16 * n))

/-- The packet whose bits are `w`, bits from `nbits` on being 0: as many words as its header calls for (log entry 5). -/
def packetOfTableWord (nbits w : Nat) : List Word :=
  let v := w % 2 ^ nbits
  (List.range (packetLength (tableWord v 0))).map (tableWord v)

/-- The command the decoder reads from a packet whose bits are `w` (log entry 5). -/
def decodeTableWord (nbits w : Nat) : Option Instr :=
  match decode (packetOfTableWord nbits w) with
  | .ok i => some i
  | .error _ => none

end Sys2Proof
end

