-- ==== Sys2Proof/Config.lean ====
section
/-! DEFINITION. The constants of R6 and the parameters of R7. -/

namespace Sys2Proof

/-- `WINDOW_SIZE` (R6). -/
abbrev windowSize : Nat := 8192
/-- `IDLE_BASE` (R6): no inhibition. -/
abbrev idleBase : Nat := 1000
/-- `IDLE_MAX` (R6). -/
abbrev idleMax : Nat := 2000
/-- `IPL_MIN` (R6). -/
abbrev iplMin : Nat := 1
/-- `IPL_MAX` (R6). -/
abbrev iplMax : Nat := 7
/-- `CB_NONE` (R7, R32): no callback. -/
abbrev cbNone : Word := 0

/-- `NEST_POLICY` (R7, R212). -/
inductive NestPolicy where
  | priority
  | anyOther
deriving DecidableEq, Repr

/-- `WAKE_POLICY` (R7, R145). -/
inductive WakePolicy where
  | envInput
  | onInterrupt
deriving DecidableEq, Repr

/-- `RESET_CFG` (R7): the configuration fields of a slot at reset. -/
structure ResetFields where
  req : Word
  size : DataSize
  dir : Direction
  timing : Timing
  nullw : Bool
  amode : AddrMode
  mode : OpMode
  sta : Offset
  stb : Offset
  pad : Word
  cnt : Word
deriving DecidableEq, Repr

/-- The OPEN parameters of R7. `W` and `CB_NONE` are decided and stand above and in Word.lean. -/
structure Config where
  /-- `WINDOW_BASE` -/
  windowBase : Word
  /-- `UNUSED_SENTINEL` -/
  unusedSentinel : Word
  /-- `REQ_LEGAL` -/
  reqLegal : List Word
  /-- `WORD_BYTES` -/
  wordBytes : Nat
  /-- `IPL_RESET` -/
  iplReset : Level
  /-- `RESET_CFG` -/
  resetCfg : ResetFields
  /-- `NEST_POLICY` -/
  nestPolicy : NestPolicy
  /-- `WAKE_POLICY` -/
  wakePolicy : WakePolicy
deriving DecidableEq, Repr

/-- The constraint column of R7. -/
structure Config.Admissible (k : Config) : Prop where
  windowFits : k.windowBase.toNat + windowSize ≤ 2 ^ 16
  wordBytesPos : 1 ≤ k.wordBytes
  iplResetPos : iplMin ≤ k.iplReset.toNat
  resetReq : k.resetCfg.req ∈ k.reqLegal
  resetSta : k.resetCfg.sta.toNat ≤ windowSize
  resetStb : k.resetCfg.stb.toNat ≤ windowSize

/-- The default column of R7, which the spec's worked examples use. DESIGN CHOICE (log entries 1 and 2): unsafe
for a claim about `State.reset` alone, since the source fixes none of these values. -/
def Config.default : Config where
  windowBase := 0x4000
  unusedSentinel := 0x0000
  reqLegal := [0, 1, 2, 3, 4, 5, 6, 7, 8, 9, 10, 11, 12, 13, 14, 15, 16, 17, 18, 19]
  wordBytes := 2
  iplReset := 4
  resetCfg := {
    req := 0, size := .byte, dir := .peripheralToMemory, timing := .half, nullw := false, amode := .am0,
    mode := .continuous, sta := 0, stb := 0, pad := 0, cnt := 0 }
  nestPolicy := .priority
  wakePolicy := .envInput

end Sys2Proof
end

