-- ==== Sys2Proof/Machine/State.lean ====
section
/-! DEFINITION. The state of the block (R20), the events of its ports (R56), and the reasons a step can stop. -/

namespace Sys2Proof.Machine

/-- One slot of the channel register file: the 17 fields of 10_state.md section 2. -/
structure Slot where
  /-- `REQ` (R22) -/
  req : Word
  /-- `SIZE` (R23) -/
  size : DataSize
  /-- `DIR` (R24) -/
  dir : Direction
  /-- `TIMING` (R25) -/
  timing : Timing
  /-- `NULLW` (R26): true = on -/
  nullw : Bool
  /-- `AMODE` (R27) -/
  amode : AddrMode
  /-- `MODE` (R28) -/
  mode : OpMode
  /-- `STA` (R29) -/
  sta : Offset
  /-- `STB` (R29) -/
  stb : Offset
  /-- `PAD` (R30) -/
  pad : Word
  /-- `CNT` (R31) -/
  cnt : Word
  /-- `CB` (R32): `cbNone` = no callback -/
  cb : Word
  /-- `EN` (R33) -/
  en : Bool
  /-- `HALF` (R34): false = 0 = "A next", true = 1 = "B next" -/
  half : Bool
  /-- `IPL` (R35) -/
  ipl : Level
  /-- `IE` (R36): true = unmasked -/
  ie : Bool
  /-- `IF` (R37): true = pending -/
  ifFlag : Bool
deriving DecidableEq, Repr

/-- The locals of a CONFIGURE in its application phase (R51): its channel, its operands, the computed offsets. -/
structure ConfigLocals where
  chan : Chan
  ops : ConfigOperands
  /-- `ra.offset`, from `c9` on -/
  offA : Option Offset
  /-- `rb.offset`, from `c10` on -/
  offB : Option Offset
deriving DecidableEq, Repr

/-- The continuation of a command (R51): the label of its next micro-step, with its locals.
The labels are those of the pseudocode of R110, R131, R141 to R144, R161, R163, R165, R167, R181. -/
inductive Cont where
  | v1 (o : ConfigOperands)
  | v2 (c : Chan) (o : ConfigOperands)
  | v3 (c : Chan) (o : ConfigOperands)
  | v4 (c : Chan) (o : ConfigOperands)
  | v5 (c : Chan) (o : ConfigOperands)
  | v6 (c : Chan) (o : ConfigOperands)
  | v7 (c : Chan) (o : ConfigOperands)
  | v8 (c : Chan) (o : ConfigOperands)
  | c1 (l : ConfigLocals)
  | c2 (l : ConfigLocals)
  | c3 (l : ConfigLocals)
  | c4 (l : ConfigLocals)
  | c5 (l : ConfigLocals)
  | c6 (l : ConfigLocals)
  | c7 (l : ConfigLocals)
  | c8 (l : ConfigLocals)
  | c9 (l : ConfigLocals)
  | c10 (l : ConfigLocals)
  | c11 (l : ConfigLocals)
  | c12 (l : ConfigLocals)
  | c13 (l : ConfigLocals)
  | c14 (l : ConfigLocals)
  | c15 (l : ConfigLocals)
  /-- TRANSLATE as a command: one micro-step, since it reads and writes no state (R131). -/
  | t1 (address size : Word)
  | i1
  /-- `t`, the value read from `IDLE_CNT` at `i1`. -/
  | i2 (t : Word)
  | r1
  /-- `t`, the value read from `IDLE_CNT` at `r1`. -/
  | r2 (t : Word)
  | m1
  | w1
  | w2
  | w3
  | e1 (channel : Word)
  | e2 (c : Chan)
  | e3 (c : Chan)
  | x1 (channel : Word)
  | x2 (c : Chan)
  | x3 (c : Chan)
  | x4 (c : Chan)
  | s1 (channel : Word)
  | s2 (c : Chan)
  | p1 (channel priority : Word)
  | p2 (c : Chan) (priority : Word)
  | p3 (c : Chan) (priority : Word)
  | f1 (channel : Word)
  | f2 (c : Chan)
deriving DecidableEq, Repr

/-- The continuation of a DISPATCH sequence (R51, R182). -/
inductive Phase where
  | d1
  | d2
  /-- Waiting at `d2`: `CB_CALL` emitted, `CB_RET` not yet received (R66, G4 and G5). -/
  | callback
  | d3
  | d4
deriving DecidableEq, Repr

/-- One entry of `ACTIVE` (R50), with the sequencing state of R51. -/
structure Handler where
  chan : Chan
  /-- `CH[chan].IPL` when the handler was entered. -/
  lvl : Level
  phase : Phase
  /-- The latched `is_first_half`, from `d2` on. -/
  firstHalf : Option Bool
  /-- The command the callback is executing. -/
  cmd : Option Cont
deriving DecidableEq, Repr

/-- The ten error kinds (R202). -/
inductive ErrorKind where
  | invalidChannelId
  | invalidRequestSource
  | invalidDataSize
  | invalidTransferDirection
  | invalidInterruptTiming
  | invalidNullWriteMode
  | invalidAddressingMode
  | invalidOperatingMode
  | invalidAddress
  | invalidPriority
deriving DecidableEq, Repr

/-- A response (R86): `ok = 1` with the value where there is one, or `ok = 0`, which has none. -/
inductive Response where
  | ok (value : Option Word)
  | aborted
deriving DecidableEq, Repr

/-- An output event of a port (R56). -/
inductive Output where
  /-- `RSP` -/
  | rsp (r : Response)
  /-- `ERR`: `(kind, op, value)` (R201) -/
  | err (kind : ErrorKind) (op : BitVec 4) (value : Word)
  /-- `CB_CALL`: `(handle, channel_id, is_first_half)` -/
  | cbCall (handle : Word) (channelId : Chan) (isFirstHalf : Bool)
  /-- `FORCE[c]` -/
  | force (c : Chan)
  /-- `IDLE_WAIT` -/
  | idleWait
deriving DecidableEq, Repr

/-- One entry of the schedule: an input of the block, or the choice of the next global step (R66, R72; log entry 3). -/
inductive Event where
  /-- G1: a pulse on `COMPLETE[c]`. -/
  | completion (c : Chan)
  /-- G2: the handler of channel c is entered. -/
  | enter (c : Chan)
  /-- G3: the running context performs its next micro-step. -/
  | run
  /-- G4: a packet on `CMD`; its operation starts. -/
  | issue (packet : List Word)
  /-- G4 and then every micro-step of the operation, no other global step in between (log entry 4). -/
  | command (packet : List Word)
  /-- G5: a pulse on `CB_RET`. -/
  | callbackReturn
  /-- G6, and the pulse `IDLE_WAKE` (log entry 7). -/
  | wake
  /-- G7: a pulse on `RESET`. -/
  | reset
deriving DecidableEq, Repr

/-- Why the machine stops with a fault. -/
inductive Fault where
  /-- Raised by DISPATCH at `d2` when no callback is registered (R189, U2). Safe. -/
  | noCallback (c : Chan)
deriving DecidableEq, Repr

/-- Why the model gives a step no meaning. -/
inductive Refusal where
  /-- Raised by an arm of `exec` that has no meaning yet. Safe. -/
  | notModelled (mnemonic : String)
  /-- Raised by `issue` and `command` on a packet that is no command (R85, U13). Safe. -/
  | illegalCommand (why : DecodeError)
  /-- Raised by CONFIGURE with `transfer_count = 0` once `v1`..`v8` have passed (R116, U3; log entry 9). Safe. -/
  | zeroTransferCount
  /-- Raised by IDLE issued from a callback (R144, U8; log entry 10). Safe. -/
  | idleInCallback
  /-- Raised by a schedule entry naming a step that R66 does not enable (log entry 3). Safe. -/
  | stepNotEnabled
deriving DecidableEq, Repr

/-- The state (R20), with the parameters of R7 (log entry 1) and the model's own `schedule` and `trace`
(log entries 3 and 6). -/
@[ext]
structure State where
  /-- The parameters of R7; no step writes them. -/
  cfg : Config
  /-- `CH[0]` .. `CH[7]` -/
  ch : Vector Slot 8
  /-- `IDLE_CNT` (R40) -/
  idleCnt : Word
  /-- `ACTIVE` (R50), the innermost handler FIRST. -/
  active : List Handler
  /-- The mainline's continuation (R51). -/
  mainOp : Option Cont
  /-- `IDLE_HOLD` (R52) -/
  idleHold : Bool
  /-- A handler has been entered since `w2` (R145, `WAKE_POLICY = on_interrupt`; log entry 7). -/
  enteredSinceWait : Bool
  /-- The model's own: what happens next, first entry first (log entry 3). -/
  schedule : List Event
  /-- The model's own: the outputs emitted so far, newest first (log entry 6). -/
  trace : List Output
deriving DecidableEq, Repr

/-- A slot after reset (R55). -/
def resetSlot (k : Config) : Slot where
  req := k.resetCfg.req
  size := k.resetCfg.size
  dir := k.resetCfg.dir
  timing := k.resetCfg.timing
  nullw := k.resetCfg.nullw
  amode := k.resetCfg.amode
  mode := k.resetCfg.mode
  sta := k.resetCfg.sta
  stb := k.resetCfg.stb
  pad := k.resetCfg.pad
  cnt := k.resetCfg.cnt
  cb := cbNone
  en := false
  half := false
  ipl := k.iplReset
  ie := false
  ifFlag := false

/-- The state after reset (R55) of a block with these parameters, nothing scheduled and nothing emitted. -/
def State.resetWith (k : Config) : State where
  cfg := k
  ch := Vector.replicate 8 (resetSlot k)
  idleCnt := 1000
  active := []
  mainOp := none
  idleHold := false
  enteredSinceWait := false
  schedule := []
  trace := []

/-- The machine right after reset, with the parameters of R7's default column (DESIGN CHOICE, log entries 1 and 2). -/
def State.reset : State := State.resetWith Config.default

/-- What a step answers. -/
abbrev Result := Host.Outcome State Fault Refusal

end Sys2Proof.Machine
end

