-- ==== Sys2Proof/Machine/Ops.lean ====
section
/-! DEFINITION. The named operations over the state: slots, ports, contexts, error reports, handler entry and return. -/

namespace Sys2Proof.Machine

/-- `CH[c]` (R9). -/
def State.slot (s : State) (c : Chan) : Slot := s.ch[c]

/-- `CH[c].F <- v` (R9): one atomic change of slot `c`. -/
def State.modSlot (s : State) (c : Chan) (f : Slot → Slot) : State := { s with ch := s.ch.set c (f (s.slot c)) }

/-- `emit PORT(args)` (R9). -/
def State.emit (s : State) (o : Output) : State := { s with trace := o :: s.trace }

/-- What the transfer engine sees of a slot on `CFG_OUT[c]` (R45; log entry 11). -/
structure CfgOut where
  req : Word
  size : DataSize
  dir : Direction
  timing : Timing
  nullw : Bool
  amode : AddrMode
  mode : OpMode
  sta : Offset
  stb : Offset
  pad : Word
  cnt : Word
  en : Bool
deriving DecidableEq, Repr

/-- The level output `CFG_OUT[c]` (R45). -/
def State.cfgOut (s : State) (c : Chan) : CfgOut :=
  let x := s.slot c
  ⟨x.req, x.size, x.dir, x.timing, x.nullw, x.amode, x.mode, x.sta, x.stb, x.pad, x.cnt, x.en⟩

/-! ### Error reports and responses -/

/-- The code of an error kind (R202). -/
def ErrorKind.code : ErrorKind → BitVec 4
  | .invalidChannelId => 1
  | .invalidRequestSource => 2
  | .invalidDataSize => 3
  | .invalidTransferDirection => 4
  | .invalidInterruptTiming => 5
  | .invalidNullWriteMode => 6
  | .invalidAddressingMode => 7
  | .invalidOperatingMode => 8
  | .invalidAddress => 9
  | .invalidPriority => 10

/-- The end of an operation by `return` (R9, R86). -/
def State.respond (s : State) (value : Option Word) : State := s.emit (.rsp (.ok value))

/-- `raise Kind(v)` (R9, R200): one report on `ERR`, then the abort, whose response carries `ok = 0`. -/
def State.raiseError (s : State) (kind : ErrorKind) (op : BitVec 4) (value : Word) : State :=
  (s.emit (.err kind op value)).emit (.rsp .aborted)

/-! ### Contexts (R50, R51, R66, R220) -/

/-- The innermost context is a handler. -/
def State.inHandler (s : State) : Bool := !s.active.isEmpty

/-- `CUR_LEVEL` (R50). -/
def State.curLevel (s : State) : Nat :=
  match s.active with
  | [] => 0
  | h :: _ => h.lvl.toNat

/-- `c` is in `ACTIVE` (R50). -/
def State.isActive (s : State) (c : Chan) : Bool := s.active.any fun h => h.chan == c

/-- The command the running context is executing (R51, R66): none in a mainline that IDLE holds. -/
def State.runningCmd (s : State) : Option Cont :=
  match s.active with
  | [] => if s.idleHold then none else s.mainOp
  | h :: _ => h.cmd

/-- Sets the continuation of the innermost context's command. -/
def State.setCmd (s : State) (k : Option Cont) : State :=
  match s.active with
  | [] => { s with mainOp := k }
  | h :: rest => { s with active := { h with cmd := k } :: rest }

/-- Sets the continuation of the innermost handler's DISPATCH sequence. -/
def State.setPhase (s : State) (p : Phase) : State :=
  match s.active with
  | [] => s
  | h :: rest => { s with active := { h with phase := p } :: rest }

/-- Latches `is_first_half` in the innermost handler (R51). -/
def State.latchFirstHalf (s : State) (f : Bool) : State :=
  match s.active with
  | [] => s
  | h :: rest => { s with active := { h with firstHalf := some f } :: rest }

/-- Where a command may be issued (R66, G4): the running context has no operation in progress, and is the mainline or a
handler waiting for its callback. -/
def State.canIssue (s : State) : Bool :=
  match s.active with
  | [] => !s.idleHold && s.mainOp.isNone
  | h :: _ => h.phase == .callback && h.cmd.isNone

/-- The outcome of a command, where one may be issued (R66, G4). -/
def issuing (s : State) (r : Result) : Result := if s.canIssue then r else .refused .stepNotEnabled

/-- `k` from the next state `r` answers; a fault or a refusal stays. -/
def onNext (r : Result) (k : State → Result) : Result :=
  match r with
  | .next t => k t
  | .fault f => .fault f
  | .refused f => .refused f

/-- A micro-step that goes on at label `k`. -/
def goto (k : Cont) (s : State) : Result := .next (s.setCmd (some k))

/-- A micro-step that ends its operation with `return value` (R86). -/
def finish (value : Option Word) (s : State) : Result := .next ((s.respond value).setCmd none)

/-- A micro-step that raises: the operation ends at the report (R200, R205). -/
def abort (kind : ErrorKind) (op : BitVec 4) (value : Word) (s : State) : Result :=
  .next ((s.raiseError kind op value).setCmd none)

/-! ### Interrupts (R210 to R215) -/

/-- Eligibility against the running context (R212). -/
def State.eligible (s : State) (c : Chan) : Bool :=
  match s.cfg.nestPolicy with
  | .priority => decide (s.curLevel < (s.slot c).ipl.toNat)
  | .anyOther => true

/-- Channel `c` is takeable (R212). -/
def State.takeable (s : State) (c : Chan) : Bool :=
  (s.slot c).ifFlag && (s.slot c).ie && !s.isActive c && s.eligible c

/-- G2 is enabled for `c` (R66, R213): takeable, and no takeable channel has a larger `IPL`. -/
def State.enterable (s : State) (c : Chan) : Bool :=
  s.takeable c &&
    (List.finRange 8).all fun d => !s.takeable d || decide ((s.slot d).ipl.toNat ≤ (s.slot c).ipl.toNat)

/-- Handler entry (R214), the block's one way of taking an interrupt: push `(c, CH[c].IPL)`, continuation `d1`.
Nothing in the register file changes. -/
def enterHandler (c : Chan) (s : State) : State :=
  { s with
    active := ⟨c, (s.slot c).ipl, .d1, none, none⟩ :: s.active
    enteredSinceWait := true }

/-- Return from the handler (R215, `d4`): pop `ACTIVE`; the context below resumes at its continuation. -/
def leaveHandler (s : State) : State := { s with active := s.active.tail }

/-- The callback's return (R66, G5): a handler waiting at `d2` with no command in progress goes on at `d3`. -/
def callbackReturn (s : State) : Result :=
  match s.active with
  | [] => .refused .stepNotEnabled
  | h :: _ => if h.phase == .callback && h.cmd.isNone then .next (s.setPhase .d3) else .refused .stepNotEnabled

/-! ### Idle and reset -/

/-- The wake condition of `WAKE_POLICY` (R145). -/
def State.wakeCondition (s : State) : Bool :=
  match s.cfg.wakePolicy with
  | .envInput => true
  | .onInterrupt => s.enteredSinceWait

/-- G6 (R66, R145): the hold is lifted; where the mainline is not held, or not to be woken yet, nothing happens
(log entry 7). -/
def wakeMainline (s : State) : State := if s.idleHold && s.wakeCondition then { s with idleHold := false } else s

/-- G7 (R240): the reset state replaces the block's state. The parameters stay, and so do the environment's schedule and
the record of what was emitted (log entry 6). -/
def resetBlock (s : State) : State := { State.resetWith s.cfg with schedule := s.schedule, trace := s.trace }

end Sys2Proof.Machine
end

