-- ==== Sys2Proof/Machine/Flags.lean ====
section
/-! DEFINITION. The flags of a slot (`EN`, `HALF`, `IE`, `IF`), its `IPL`, and the idle-inhibition counter: each access
that writes one is one atomic step (R65). -/

namespace Sys2Proof.Machine

/-- `CH[c].EN <- 1` (R33). -/
def setEn (c : Chan) (s : State) : State := s.modSlot c fun x => { x with en := true }

/-- `CH[c].EN <- 0` (R33). -/
def clearEn (c : Chan) (s : State) : State := s.modSlot c fun x => { x with en := false }

/-- `CH[c].HALF <- 0`, "A next" (R34). -/
def clearHalf (c : Chan) (s : State) : State := s.modSlot c fun x => { x with half := false }

/-- `CH[c].HALF <- NOT CH[c].HALF` (R34, R184). -/
def toggleHalf (c : Chan) (s : State) : State := s.modSlot c fun x => { x with half := !x.half }

/-- `CH[c].IF <- 1`: the whole effect of a completion event (R37, R180; global step G1). -/
def setIf (c : Chan) (s : State) : State := s.modSlot c fun x => { x with ifFlag := true }

/-- `CH[c].IF <- 0` (R37). -/
def clearIf (c : Chan) (s : State) : State := s.modSlot c fun x => { x with ifFlag := false }

/-- `CH[c].IE <- b` (R36). -/
def setIe (c : Chan) (b : Bool) (s : State) : State := s.modSlot c fun x => { x with ie := b }

/-- `CH[c].IPL <- priority` (R35). -/
def setIpl (c : Chan) (priority : Word) (s : State) : State :=
  s.modSlot c fun x => { x with ipl := priority.setWidth 3 }

/-- The write of INHIBIT, `i2`, from the value `t` read at `i1` (R141). -/
def raiseCounter (t : Word) (s : State) : State :=
  if idleBase ≤ t.toNat ∧ t.toNat + 1 ≤ idleMax then { s with idleCnt := t + 1 } else s

/-- The write of RELEASE, `r2`, from the value `t` read at `r1` (R142); `t - 1 >= 1000` on integers. -/
def lowerCounter (t : Word) (s : State) : State :=
  if t.toNat ≤ idleMax ∧ idleBase + 1 ≤ t.toNat then { s with idleCnt := t - 1 } else s

end Sys2Proof.Machine
end

