-- ==== Sys2Proof/Machine/Operands.lean ====
section
/-! DEFINITION. The operands of the commands: channel check, enumerated codes, address translation, CONFIGURE's validation. -/

namespace Sys2Proof.Machine

/-- The channel index check (R21, R160): the slot index, or none outside `[0, 7]`. -/
def chan? (w : Word) : Option Chan := if h : w.toNat < 8 then some ⟨w.toNat, h⟩ else none

/-! ### Enumerated operands (R82). Each function is applied only to a code its validation step has let through. -/

/-- `data_size`: 0 byte, 1 word (R23). -/
def dataSizeOf (w : Word) : DataSize := if w = 0 then .byte else .word

/-- `direction`: 0 peripheral-to-memory, 1 memory-to-peripheral (R24). -/
def directionOf (w : Word) : Direction := if w = 0 then .peripheralToMemory else .memoryToPeripheral

/-- `interrupt_timing`: 0 half, 1 full (R25). -/
def timingOf (w : Word) : Timing := if w = 0 then .half else .full

/-- `null_write_mode`: 0 off, 1 on (R26). -/
def nullWriteOf (w : Word) : Bool := w != 0

/-- `addressing_mode`: 0, 1, 2 (R27). -/
def addrModeOf (w : Word) : AddrMode := if w = 0 then .am0 else if w = 1 then .am1 else .am2

/-- `operating_mode`: the document's order (R28). -/
def opModeOf (w : Word) : OpMode :=
  if w = 0 then .continuous else if w = 1 then .oneShot else if w = 2 then .continuousPingPong else .oneShotPingPong

/-! ### The code of a stored enumerated field (R82; 10_state.md section 2) -/

/-- The code of `SIZE` (R23). -/
def dataSizeCode : DataSize → Nat
  | .byte => 0
  | .word => 1

/-- The code of `DIR` (R24). -/
def directionCode : Direction → Nat
  | .peripheralToMemory => 0
  | .memoryToPeripheral => 1

/-- The code of `TIMING` (R25). -/
def timingCode : Timing → Nat
  | .half => 0
  | .full => 1

/-- The code of `NULLW` (R26). -/
def nullWriteCode (b : Bool) : Nat := if b then 1 else 0

/-- The code of `AMODE` (R27). -/
def addrModeCode : AddrMode → Nat
  | .am0 => 0
  | .am1 => 1
  | .am2 => 2

/-- The code of `MODE` (R28). -/
def opModeCode : OpMode → Nat
  | .continuous => 0
  | .oneShot => 1
  | .continuousPingPong => 2
  | .oneShotPingPong => 3

/-- `ONE_SHOT(m) := m in {1, 3}` (R28). -/
def oneShot : OpMode → Bool
  | .continuous => false
  | .oneShot => true
  | .continuousPingPong => false
  | .oneShotPingPong => true

/-- `PINGPONG(m) := m in {2, 3}` (R28); no operation reads it. -/
def pingPong : OpMode → Bool
  | .continuous => false
  | .oneShot => false
  | .continuousPingPong => true
  | .oneShotPingPong => true

/-! ### The Address Translator (R130 to R136) -/

/-- `UNIT_BYTES` (R23). -/
def unitBytes (k : Config) : DataSize → Nat
  | .byte => 1
  | .word => k.wordBytes

/-- TRANSLATE (R131), `t1` to `t4`, on unbounded naturals: the offset, or none where it raises invalid-address. -/
def translate (k : Config) (address : Word) (size : Nat) : Option Nat :=
  if address = k.unusedSentinel then some 0
  else if address.toNat < k.windowBase.toNat then none
  else
    let offset := address.toNat - k.windowBase.toNat
    if offset + size > windowSize then none else some offset

/-- `bytes` of a CONFIGURE (R115): unbounded. -/
def bufferBytes (k : Config) (o : ConfigOperands) : Nat := o.transferCount.toNat * unitBytes k (dataSizeOf o.dataSize)

/-- The offset CONFIGURE stores for a buffer at `address` (R115). -/
def bufferOffset (k : Config) (o : ConfigOperands) (address : Word) : Option Offset :=
  (translate k address (bufferBytes k o)).map (BitVec.ofNat 14)

/-! ### CONFIGURE's validation phase (R110, R112, R204) -/

/-- The first of `v2`..`v8` that fails, with the value it reports. -/
def firstIllegal (k : Config) (o : ConfigOperands) : Option (ErrorKind × Word) :=
  if !k.reqLegal.contains o.requestSource then some (.invalidRequestSource, o.requestSource)
  else if 1 < o.dataSize.toNat then some (.invalidDataSize, o.dataSize)
  else if 1 < o.direction.toNat then some (.invalidTransferDirection, o.direction)
  else if 1 < o.interruptTiming.toNat then some (.invalidInterruptTiming, o.interruptTiming)
  else if 1 < o.nullWriteMode.toNat then some (.invalidNullWriteMode, o.nullWriteMode)
  else if 2 < o.addressingMode.toNat then some (.invalidAddressingMode, o.addressingMode)
  else if 3 < o.operatingMode.toNat then some (.invalidOperatingMode, o.operatingMode)
  else none

end Sys2Proof.Machine
end

