-- ==== Sys2Proof/Machine/Completion.lean ====
section
/-! DEFINITION. The Interrupt Dispatcher: COMPLETE and the handler sequence DISPATCH (45_dispatch.md). -/

namespace Sys2Proof.Machine

/-- `f1` (R181) -/
def microF1 (channel : Word) (s : State) : Result :=
  match chan? channel with
  | none => abort .invalidChannelId opComplete channel s
  | some c => goto (.f2 c) s

/-- `f2` (R181) -/
def microF2 (c : Chan) (s : State) : Result := finish none (setIf c s)

/-- COMPLETE (R181): the completion event as a command. It does not itself run the handler. -/
def execComplete (channel : Word) (s : State) : Result :=
  issuing s <|
    match chan? channel with
    | none => .next (s.raiseError .invalidChannelId opComplete channel)
    | some c => .next ((setIf c s).respond none)

/-- `d1` (R182): the pending flag is cleared before the callback (R183). -/
def microD1 (c : Chan) (s : State) : Result := .next ((clearIf c s).setPhase .d2)

/-- `d2` (R182, R185, R187): `HALF` and `CB` are read in one micro-step; with no callback, the fault of R189. -/
def microD2 (c : Chan) (s : State) : Result :=
  let x := s.slot c
  if x.cb = cbNone then .fault (.noCallback c)
  else
    let f := !x.half
    .next (((s.emit (.cbCall x.cb c f)).latchFirstHalf f).setPhase .callback)

/-- `d3` (R182, R184, R188): toggles the value `HALF` has now, in every mode. -/
def microD3 (c : Chan) (s : State) : Result := .next ((toggleHalf c s).setPhase .d4)

/-- `d4` (R182, R215). -/
def microD4 (s : State) : Result := .next (leaveHandler s)

/-- The next micro-step of DISPATCH(c); none while the callback runs (R66, G5). -/
def dispatchStep (c : Chan) (p : Phase) (s : State) : Result :=
  match p with
  | .d1 => microD1 c s
  | .d2 => microD2 c s
  | .callback => .refused .stepNotEnabled
  | .d3 => microD3 c s
  | .d4 => microD4 s

end Sys2Proof.Machine
end

