-- ==== Sys2Proof/Machine/Configure.lean ====
section
/-! DEFINITION. The Configuration Engine: CONFIGURE (41_configure.md), its micro-steps and its meaning. -/

namespace Sys2Proof.Machine

/-! ### The micro-steps of R110. The `v` steps read and write no state. -/

/-- A validation step: raise when the operand is illegal, else go on at `k`. -/
def validateStep (illegal : Bool) (kind : ErrorKind) (value : Word) (k : Cont) (s : State) : Result :=
  if illegal then abort kind opConfigure value s else goto k s

/-- `v1` -/
def microV1 (o : ConfigOperands) (s : State) : Result :=
  match chan? o.channel with
  | none => abort .invalidChannelId opConfigure o.channel s
  | some c => goto (.v2 c o) s

/-- `v2` -/
def microV2 (c : Chan) (o : ConfigOperands) (s : State) : Result :=
  validateStep (!s.cfg.reqLegal.contains o.requestSource) .invalidRequestSource o.requestSource (.v3 c o) s

/-- `v3` -/
def microV3 (c : Chan) (o : ConfigOperands) (s : State) : Result :=
  validateStep (1 < o.dataSize.toNat) .invalidDataSize o.dataSize (.v4 c o) s

/-- `v4` -/
def microV4 (c : Chan) (o : ConfigOperands) (s : State) : Result :=
  validateStep (1 < o.direction.toNat) .invalidTransferDirection o.direction (.v5 c o) s

/-- `v5` -/
def microV5 (c : Chan) (o : ConfigOperands) (s : State) : Result :=
  validateStep (1 < o.interruptTiming.toNat) .invalidInterruptTiming o.interruptTiming (.v6 c o) s

/-- `v6` -/
def microV6 (c : Chan) (o : ConfigOperands) (s : State) : Result :=
  validateStep (1 < o.nullWriteMode.toNat) .invalidNullWriteMode o.nullWriteMode (.v7 c o) s

/-- `v7` -/
def microV7 (c : Chan) (o : ConfigOperands) (s : State) : Result :=
  validateStep (2 < o.addressingMode.toNat) .invalidAddressingMode o.addressingMode (.v8 c o) s

/-- `v8`; a CONFIGURE that passes it with `transfer_count = 0` has no meaning (R116; log entry 9). -/
def microV8 (c : Chan) (o : ConfigOperands) (s : State) : Result :=
  if 3 < o.operatingMode.toNat then abort .invalidOperatingMode opConfigure o.operatingMode s
  else if o.transferCount = 0 then .refused .zeroTransferCount
  else goto (.c1 ⟨c, o, none, none⟩) s

/-- `c1` (R113): clears `EN` and nothing else. -/
def microC1 (l : ConfigLocals) (s : State) : Result := goto (.c2 l) (clearEn l.chan s)

/-- `c2` -/
def microC2 (l : ConfigLocals) (s : State) : Result :=
  goto (.c3 l) (s.modSlot l.chan fun x => { x with req := l.ops.requestSource })

/-- `c3` -/
def microC3 (l : ConfigLocals) (s : State) : Result :=
  goto (.c4 l) (s.modSlot l.chan fun x => { x with size := dataSizeOf l.ops.dataSize })

/-- `c4` -/
def microC4 (l : ConfigLocals) (s : State) : Result :=
  goto (.c5 l) (s.modSlot l.chan fun x => { x with dir := directionOf l.ops.direction })

/-- `c5` -/
def microC5 (l : ConfigLocals) (s : State) : Result :=
  goto (.c6 l) (s.modSlot l.chan fun x => { x with timing := timingOf l.ops.interruptTiming })

/-- `c6` -/
def microC6 (l : ConfigLocals) (s : State) : Result :=
  goto (.c7 l) (s.modSlot l.chan fun x => { x with nullw := nullWriteOf l.ops.nullWriteMode })

/-- `c7` -/
def microC7 (l : ConfigLocals) (s : State) : Result :=
  goto (.c8 l) (s.modSlot l.chan fun x => { x with amode := addrModeOf l.ops.addressingMode })

/-- `c8` -/
def microC8 (l : ConfigLocals) (s : State) : Result :=
  goto (.c9 l) (s.modSlot l.chan fun x => { x with mode := opModeOf l.ops.operatingMode })

/-- `c9` with the translation of `buffer_a` before it (R115). -/
def microC9 (l : ConfigLocals) (s : State) : Result :=
  match bufferOffset s.cfg l.ops l.ops.bufferA with
  | none => abort .invalidAddress opConfigure l.ops.bufferA s
  | some a => goto (.c10 { l with offA := some a }) (s.modSlot l.chan fun x => { x with sta := a })

/-- `c10` with the translation of `buffer_b` before it (R115). -/
def microC10 (l : ConfigLocals) (s : State) : Result :=
  match bufferOffset s.cfg l.ops l.ops.bufferB with
  | none => abort .invalidAddress opConfigure l.ops.bufferB s
  | some b => goto (.c11 { l with offB := some b }) (s.modSlot l.chan fun x => { x with stb := b })

/-- `c11` -/
def microC11 (l : ConfigLocals) (s : State) : Result :=
  goto (.c12 l) (s.modSlot l.chan fun x => { x with pad := l.ops.peripheralAddress })

/-- `c12` -/
def microC12 (l : ConfigLocals) (s : State) : Result :=
  goto (.c13 l) (s.modSlot l.chan fun x => { x with cnt := l.ops.transferCount })

/-- `c13` -/
def microC13 (l : ConfigLocals) (s : State) : Result :=
  goto (.c14 l) (s.modSlot l.chan fun x => { x with cb := l.ops.callback })

/-- `c14` (R117) -/
def microC14 (l : ConfigLocals) (s : State) : Result := goto (.c15 l) (setIe l.chan (l.ops.callback != cbNone) s)

/-- `c15` (R117): the last micro-step, with the `return` (log entry 8). -/
def microC15 (l : ConfigLocals) (s : State) : Result :=
  finish none (if l.ops.callback = cbNone then clearIf l.chan s else s)

/-! ### The whole command -/

/-- `c1` to `c8` (R113, R114). -/
def applyEnumerated (c : Chan) (o : ConfigOperands) (s : State) : State :=
  s.modSlot c fun x =>
    { x with
      en := false
      req := o.requestSource
      size := dataSizeOf o.dataSize
      dir := directionOf o.direction
      timing := timingOf o.interruptTiming
      nullw := nullWriteOf o.nullWriteMode
      amode := addrModeOf o.addressingMode
      mode := opModeOf o.operatingMode }

/-- `c11` to `c15` (R116, R117). -/
def applyTail (c : Chan) (o : ConfigOperands) (s : State) : State :=
  s.modSlot c fun x =>
    { x with
      pad := o.peripheralAddress
      cnt := o.transferCount
      cb := o.callback
      ie := o.callback != cbNone
      ifFlag := if o.callback = cbNone then false else x.ifFlag }

/-- The application phase (R110, R115, R118): what an address failure leaves behind is not rolled back. -/
def applyConfigure (c : Chan) (o : ConfigOperands) (s : State) : State :=
  let s1 := applyEnumerated c o s
  match bufferOffset s.cfg o o.bufferA with
  | none => s1.raiseError .invalidAddress opConfigure o.bufferA
  | some a =>
    let s2 := s1.modSlot c fun x => { x with sta := a }
    match bufferOffset s.cfg o o.bufferB with
    | none => s2.raiseError .invalidAddress opConfigure o.bufferB
    | some b => (applyTail c o (s2.modSlot c fun x => { x with stb := b })).respond none

/-- CONFIGURE (R110), no other global step in between. -/
def execConfigure (o : ConfigOperands) (s : State) : Result :=
  issuing s <|
    match chan? o.channel with
    | none => .next (s.raiseError .invalidChannelId opConfigure o.channel)
    | some c =>
      match firstIllegal s.cfg o with
      | some (kind, value) => .next (s.raiseError kind opConfigure value)
      | none => if o.transferCount = 0 then .refused .zeroTransferCount else .next (applyConfigure c o s)

end Sys2Proof.Machine
end

