-- ==== Sys2Proof/Machine/Control.lean ====
section
/-! DEFINITION. The Channel Registry's control operations: ENABLE, DISABLE, START, SETPRI (44_control.md). -/

namespace Sys2Proof.Machine

/-! ### The micro-steps -/

/-- `e1` (R160, R161) -/
def microE1 (channel : Word) (s : State) : Result :=
  match chan? channel with
  | none => abort .invalidChannelId opEnable channel s
  | some c => goto (.e2 c) s

/-- `e2` (R161) -/
def microE2 (c : Chan) (s : State) : Result := goto (.e3 c) (setEn c s)

/-- `e3` (R161), with the `return` of the modes that are not one-shot (log entry 8). -/
def microE3 (c : Chan) (s : State) : Result := if oneShot (s.slot c).mode then goto .i1 s else finish none s

/-- `x1` (R160, R163) -/
def microX1 (channel : Word) (s : State) : Result :=
  match chan? channel with
  | none => abort .invalidChannelId opDisable channel s
  | some c => goto (.x2 c) s

/-- `x2` (R163) -/
def microX2 (c : Chan) (s : State) : Result := goto (.x3 c) (clearEn c s)

/-- `x3` (R163) -/
def microX3 (c : Chan) (s : State) : Result := goto (.x4 c) (clearHalf c s)

/-- `x4` (R163), with the `return` of the modes that are not one-shot (log entry 8). -/
def microX4 (c : Chan) (s : State) : Result := if oneShot (s.slot c).mode then goto .r1 s else finish none s

/-- `s1` (R160, R165) -/
def microS1 (channel : Word) (s : State) : Result :=
  match chan? channel with
  | none => abort .invalidChannelId opStart channel s
  | some c => goto (.s2 c) s

/-- `s2` (R165) -/
def microS2 (c : Chan) (s : State) : Result := finish none (s.emit (.force c))

/-- `p1` (R160, R167) -/
def microP1 (channel priority : Word) (s : State) : Result :=
  match chan? channel with
  | none => abort .invalidChannelId opSetPri channel s
  | some c => goto (.p2 c priority) s

/-- The priorities SETPRI refuses (R167). -/
def illegalPriority (priority : Word) : Bool := priority.toNat < iplMin || iplMax < priority.toNat

/-- `p2` (R167) -/
def microP2 (c : Chan) (priority : Word) (s : State) : Result :=
  if illegalPriority priority then abort .invalidPriority opSetPri priority s else goto (.p3 c priority) s

/-- `p3` (R167) -/
def microP3 (c : Chan) (priority : Word) (s : State) : Result := finish none (setIpl c priority s)

/-! ### The whole commands, no other global step in between -/

/-- ENABLE (R161): `EN` first, then INHIBIT in a one-shot mode. -/
def execEnable (channel : Word) (s : State) : Result :=
  issuing s <|
    match chan? channel with
    | none => .next (s.raiseError .invalidChannelId opEnable channel)
    | some c =>
      let s1 := setEn c s
      .next ((if oneShot (s1.slot c).mode then raiseCounter s1.idleCnt s1 else s1).respond none)

/-- DISABLE (R163): `EN` and `HALF` cleared, then RELEASE in a one-shot mode. -/
def execDisable (channel : Word) (s : State) : Result :=
  issuing s <|
    match chan? channel with
    | none => .next (s.raiseError .invalidChannelId opDisable channel)
    | some c =>
      let s1 := clearHalf c (clearEn c s)
      .next ((if oneShot (s1.slot c).mode then lowerCounter s1.idleCnt s1 else s1).respond none)

/-- START (R165, R166): the pulse, for any valid channel. -/
def execStart (channel : Word) (s : State) : Result :=
  issuing s <|
    match chan? channel with
    | none => .next (s.raiseError .invalidChannelId opStart channel)
    | some c => .next ((s.emit (.force c)).respond none)

/-- SETPRI (R167): the channel is tested first. -/
def execSetPri (channel priority : Word) (s : State) : Result :=
  issuing s <|
    match chan? channel with
    | none => .next (s.raiseError .invalidChannelId opSetPri channel)
    | some c =>
      if illegalPriority priority then .next (s.raiseError .invalidPriority opSetPri priority)
      else .next ((setIpl c priority s).respond none)

end Sys2Proof.Machine
end

