-- ==== Sys2Proof/Machine/Idle.lean ====
section
/-! DEFINITION. The Idle-Inhibition Coordinator: INHIBIT, RELEASE, MAYIDLE, IDLE (43_idle.md). -/

namespace Sys2Proof.Machine

/-- `i1` (R141): the read of `IDLE_CNT`. -/
def microI1 (s : State) : Result := goto (.i2 s.idleCnt) s

/-- `i2` (R141): the write, from the value read at `i1` (R147). -/
def microI2 (t : Word) (s : State) : Result := finish none (raiseCounter t s)

/-- `r1` (R142): the read of `IDLE_CNT`. -/
def microR1 (s : State) : Result := goto (.r2 s.idleCnt) s

/-- `r2` (R142): the write, from the value read at `r1` (R147). -/
def microR2 (t : Word) (s : State) : Result := finish none (lowerCounter t s)

/-- The value of MAYIDLE (R143): 1 iff the counter is at the baseline. -/
def mayIdleValue (t : Word) : Word := if t.toNat = idleBase then 1 else 0

/-- `m1` (R143). -/
def microM1 (s : State) : Result := finish (some (mayIdleValue s.idleCnt)) s

/-- The effect of `w2` (R144): `IDLE_WAIT` is emitted and the mainline held. -/
def beginWait (s : State) : State := { s.emit .idleWait with idleHold := true, enteredSinceWait := false }

/-- `w1` (R144): idle inhibited, no wait. -/
def microW1 (s : State) : Result := if s.idleCnt.toNat ≠ idleBase then finish none s else goto .w2 s

/-- `w2` (R144). -/
def microW2 (s : State) : Result := goto .w3 (beginWait s)

/-- `w3` (R144): enabled only when `IDLE_HOLD = 0`. -/
def microW3 (s : State) : Result := if s.idleHold then .refused .stepNotEnabled else finish none s

/-- INHIBIT (R141), no other global step in between. -/
def execInhibit (s : State) : Result := issuing s <| .next ((raiseCounter s.idleCnt s).respond none)

/-- RELEASE (R142), no other global step in between. -/
def execRelease (s : State) : Result := issuing s <| .next ((lowerCounter s.idleCnt s).respond none)

/-- MAYIDLE (R143). -/
def execMayIdle (s : State) : Result := issuing s <| .next (s.respond (some (mayIdleValue s.idleCnt)))

/-- IDLE (R144), no other global step in between, up to the wait: where the counter is at the baseline it stays at `w3`
until the wake. From a callback it is refused (U8; log entry 10). -/
def execIdle (s : State) : Result :=
  issuing s <|
    if s.inHandler then .refused .idleInCallback
    else if s.idleCnt.toNat ≠ idleBase then .next (s.respond none)
    else .next ((beginWait s).setCmd (some .w3))

end Sys2Proof.Machine
end

