-- ==== Sys2Proof/Machine/Translate.lean ====
section
/-! DEFINITION. The Address Translator as a command: TRANSLATE (42_translate.md). -/

namespace Sys2Proof.Machine

/-- TRANSLATE is one micro-step: it reads and writes no state (R131). -/
def microT1 (address size : Word) (s : State) : Result :=
  match translate s.cfg address size.toNat with
  | none => abort .invalidAddress opTranslate address s
  | some offset => finish (some (BitVec.ofNat 16 offset)) s

/-- TRANSLATE (R131): the offset as the response's value, or invalid-address and no value (R134). -/
def execTranslate (address size : Word) (s : State) : Result :=
  issuing s <|
    match translate s.cfg address size.toNat with
    | none => .next (s.raiseError .invalidAddress opTranslate address)
    | some offset => .next (s.respond (some (BitVec.ofNat 16 offset)))

end Sys2Proof.Machine
end

