-- ==== Sys2Proof/Machine/Micro.lean ====
section
/-! DEFINITION. Commands at micro-step grain (R9, R51, R66): how one starts, what its next micro-step does, and the
context step of G3. -/

namespace Sys2Proof.Machine

/-- The first micro-step of a command (R66, G4). -/
def firstCont : Instr → Cont
  | .configure o => .v1 o
  | .translate address size => .t1 address size
  | .inhibit => .i1
  | .release => .r1
  | .mayIdle => .m1
  | .idle => .w1
  | .enable channel => .e1 channel
  | .disable channel => .x1 channel
  | .start channel => .s1 channel
  | .setPri channel priority => .p1 channel priority
  | .complete channel => .f1 channel

/-- The micro-step at a label, in the innermost context (R9). -/
def microStep (k : Cont) (s : State) : Result :=
  match k with
  | .v1 o => microV1 o s
  | .v2 c o => microV2 c o s
  | .v3 c o => microV3 c o s
  | .v4 c o => microV4 c o s
  | .v5 c o => microV5 c o s
  | .v6 c o => microV6 c o s
  | .v7 c o => microV7 c o s
  | .v8 c o => microV8 c o s
  | .c1 l => microC1 l s
  | .c2 l => microC2 l s
  | .c3 l => microC3 l s
  | .c4 l => microC4 l s
  | .c5 l => microC5 l s
  | .c6 l => microC6 l s
  | .c7 l => microC7 l s
  | .c8 l => microC8 l s
  | .c9 l => microC9 l s
  | .c10 l => microC10 l s
  | .c11 l => microC11 l s
  | .c12 l => microC12 l s
  | .c13 l => microC13 l s
  | .c14 l => microC14 l s
  | .c15 l => microC15 l s
  | .t1 address size => microT1 address size s
  | .i1 => microI1 s
  | .i2 t => microI2 t s
  | .r1 => microR1 s
  | .r2 t => microR2 t s
  | .m1 => microM1 s
  | .w1 => microW1 s
  | .w2 => microW2 s
  | .w3 => microW3 s
  | .e1 channel => microE1 channel s
  | .e2 c => microE2 c s
  | .e3 c => microE3 c s
  | .x1 channel => microX1 channel s
  | .x2 c => microX2 c s
  | .x3 c => microX3 c s
  | .x4 c => microX4 c s
  | .s1 channel => microS1 channel s
  | .s2 c => microS2 c s
  | .p1 channel priority => microP1 channel priority s
  | .p2 c priority => microP2 c priority s
  | .p3 c priority => microP3 c priority s
  | .f1 channel => microF1 channel s
  | .f2 c => microF2 c s

/-- Whether a command is IDLE, which a callback must not issue (R144, U8). -/
def isIdle : Instr → Bool
  | .configure _ => false
  | .translate _ _ => false
  | .inhibit => false
  | .release => false
  | .mayIdle => false
  | .idle => true
  | .enable _ => false
  | .disable _ => false
  | .start _ => false
  | .setPri _ _ => false
  | .complete _ => false

/-- G4 (R66): a command is placed on `CMD`; its operation starts with its first micro-step as continuation. -/
def issueCommand (i : Instr) (s : State) : Result :=
  issuing s <|
    if isIdle i && s.inHandler then .refused .idleInCallback else .next (s.setCmd (some (firstCont i)))

/-- G3 (R66): the running context performs its next micro-step: that of its command, or of its DISPATCH sequence. -/
def contextStep (s : State) : Result :=
  match s.active with
  | [] =>
    match s.runningCmd with
    | none => .refused .stepNotEnabled
    | some k => microStep k s
  | h :: _ =>
    match h.cmd with
    | none => dispatchStep h.chan h.phase s
    | some k => microStep k s

/-- The micro-steps of the running context's command, one after the other with no other global step in between, until
it has ended or is held (at most `n` of them). -/
def runCommand : Nat → State → Result
  | 0, s => .next s
  | n + 1, s =>
    match s.runningCmd with
    | none => .next s
    | some k => onNext (microStep k s) (runCommand n)

end Sys2Proof.Machine
end

