-- ==== Sys2Proof/Machine/Dispatch.lean ====
section
/-! DEFINITION. The meaning of each command as a whole (no other global step between its micro-steps). -/

namespace Sys2Proof.Machine

def exec (i : Instr) (s : State) : Host.Outcome State Fault Refusal :=
  match i with
  | .configure o => Sys2Proof.Machine.execConfigure o s
  | .translate address size => Sys2Proof.Machine.execTranslate address size s
  | .inhibit => Sys2Proof.Machine.execInhibit s
  | .release => Sys2Proof.Machine.execRelease s
  | .mayIdle => Sys2Proof.Machine.execMayIdle s
  | .idle => Sys2Proof.Machine.execIdle s
  | .enable channel => Sys2Proof.Machine.execEnable channel s
  | .disable channel => Sys2Proof.Machine.execDisable channel s
  | .start channel => Sys2Proof.Machine.execStart channel s
  | .setPri channel priority => Sys2Proof.Machine.execSetPri channel priority s
  | .complete channel => Sys2Proof.Machine.execComplete channel s

end Sys2Proof.Machine
end

