-- ==== Sys2Proof/Machine/Events.lean ====
section
/-! DEFINITION. The global steps G1 to G7 (R66), each named by one entry of the schedule (log entry 3). -/

namespace Sys2Proof.Machine

/-- The global step an entry of the schedule names; where R66 does not enable it, refused (log entry 3). -/
def takeEvent (e : Event) (s : State) : Result :=
  match e with
  | .completion c => .next (setIf c s)
  | .enter c => if s.enterable c then .next (enterHandler c s) else .refused .stepNotEnabled
  | .run => contextStep s
  | .issue packet =>
    match decode packet with
    | .error why => .refused (.illegalCommand why)
    | .ok i => issueCommand i s
  | .command packet =>
    match decode packet with
    | .error why => .refused (.illegalCommand why)
    | .ok i => exec i s
  | .callbackReturn => callbackReturn s
  | .wake => .next (wakeMainline s)
  | .reset => .next (resetBlock s)

/-- What one step does: it takes the first entry off the schedule; with nothing scheduled the block waits (R241). -/
def takeNext (s : State) : Result :=
  match s.schedule with
  | [] => .next s
  | e :: rest => takeEvent e { s with schedule := rest }

/-- A packet put where the next step takes it: on `CMD`, as the first entry of the schedule (log entry 5). -/
def placePacket (packet : List Word) (s : State) : State := { s with schedule := .command packet :: s.schedule }

end Sys2Proof.Machine
end

