-- ==== Sys2Proof/Machine/Step.lean ====
section
/-! DEFINITION. One step of the block, and where the host places a command. -/

namespace Sys2Proof.Machine

/-- One global step (R66). -/
def step (s : State) : Host.Outcome State Fault Refusal := takeNext s

/-- `s` with the command whose bits are `w` placed on the command port, so that the next step runs it (log entry 5). -/
def State.withFetchWord (s : State) (nbits w : Nat) : State := placePacket (packetOfTableWord nbits w) s

end Sys2Proof.Machine
end

