-- ==== Sys2Proof/Machine/Assembler.lean ====
section
/-! DEFINITION. The textual form of a command and of the trace markers (R87), on lists of characters (log entry 14). -/

namespace Sys2Proof.Machine

/-- One line of assembler text (R87). -/
inductive AsmLine where
  /-- Nothing but blanks and a comment. -/
  | blank
  | command (i : Instr)
  /-- `@irq c`: handler entry for channel c (G2). -/
  | irq (c : Chan)
  /-- `@ret`: a callback's return (`CB_RET`). -/
  | ret
deriving DecidableEq, Repr

/-- A blank between the parts of a line. -/
def isBlank (c : Char) : Bool := c == ' ' || c == '\t'

/-- The line without the blanks at its two ends. -/
def trimBlanks (l : List Char) : List Char := ((l.dropWhile isBlank).reverse.dropWhile isBlank).reverse

/-- The line without its comment: `;` starts one (R87). -/
def dropComment (l : List Char) : List Char := l.takeWhile (· != ';')

/-- The pieces between commas. -/
def splitCommas : List Char → List (List Char)
  | [] => [[]]
  | c :: cs =>
    if c == ',' then [] :: splitCommas cs
    else match splitCommas cs with
      | [] => [[c]]
      | w :: ws => (c :: w) :: ws

/-- The value of a digit in a base up to 16. -/
def digitValue (c : Char) : Option Nat :=
  if '0'.toNat ≤ c.toNat && c.toNat ≤ '9'.toNat then some (c.toNat - '0'.toNat)
  else if 'a'.toNat ≤ c.toNat && c.toNat ≤ 'f'.toNat then some (c.toNat - 'a'.toNat + 10)
  else if 'A'.toNat ≤ c.toNat && c.toNat ≤ 'F'.toNat then some (c.toNat - 'A'.toNat + 10)
  else none

/-- The natural written by these digits, after those already read (`acc`). -/
def digitsValue (base : Nat) : Nat → List Char → Option Nat
  | acc, [] => some acc
  | acc, c :: cs =>
    match digitValue c with
    | some d => if d < base then digitsValue base (acc * base + d) cs else none
    | none => none

/-- A decimal or `0x` hexadecimal natural (R87). -/
def naturalValue : List Char → Option Nat
  | [] => none
  | '0' :: 'x' :: d :: ds => digitsValue 16 0 (d :: ds)
  | c :: cs => digitsValue 10 0 (c :: cs)

/-- The symbolic operand names (R87), each exactly its number. -/
def symbolValue (k : Config) (t : List Char) : Option Word :=
  if t = ['B', 'Y', 'T', 'E'] then some 0
  else if t = ['W', 'O', 'R', 'D'] then some 1
  else if t = ['P', '2', 'M'] then some 0
  else if t = ['M', '2', 'P'] then some 1
  else if t = ['H', 'A', 'L', 'F'] then some 0
  else if t = ['F', 'U', 'L', 'L'] then some 1
  else if t = ['N', 'W', '_', 'O', 'F', 'F'] then some 0
  else if t = ['N', 'W', '_', 'O', 'N'] then some 1
  else if t = ['A', 'M', '0'] then some 0
  else if t = ['A', 'M', '1'] then some 1
  else if t = ['A', 'M', '2'] then some 2
  else if t = ['C', 'O', 'N', 'T'] then some 0
  else if t = ['O', 'N', 'E', 'S', 'H', 'O', 'T'] then some 1
  else if t = ['C', 'O', 'N', 'T', '_', 'P', 'P'] then some 2
  else if t = ['O', 'N', 'E', 'S', 'H', 'O', 'T', '_', 'P', 'P'] then some 3
  else if t = ['U', 'N', 'U', 'S', 'E', 'D'] then some k.unusedSentinel
  else if t = ['N', 'O', 'C', 'B'] then some cbNone
  else none

/-- One operand (R87): a symbolic name, or a natural that fits an operand word. -/
def operandValue (k : Config) (t : List Char) : Option Word :=
  match symbolValue k t with
  | some w => some w
  | none =>
    match naturalValue t with
    | some n => if n < 2 ^ 16 then some (BitVec.ofNat 16 n) else none
    | none => none

/-- The opcode of a mnemonic (R83). -/
def mnemonicOpcode (t : List Char) : Option (BitVec 4) :=
  if t = ['C', 'O', 'N', 'F', 'I', 'G', 'U', 'R', 'E'] then some opConfigure
  else if t = ['T', 'R', 'A', 'N', 'S', 'L', 'A', 'T', 'E'] then some opTranslate
  else if t = ['I', 'N', 'H', 'I', 'B', 'I', 'T'] then some opInhibit
  else if t = ['R', 'E', 'L', 'E', 'A', 'S', 'E'] then some opRelease
  else if t = ['M', 'A', 'Y', 'I', 'D', 'L', 'E'] then some opMayIdle
  else if t = ['I', 'D', 'L', 'E'] then some opIdle
  else if t = ['E', 'N', 'A', 'B', 'L', 'E'] then some opEnable
  else if t = ['D', 'I', 'S', 'A', 'B', 'L', 'E'] then some opDisable
  else if t = ['S', 'T', 'A', 'R', 'T'] then some opStart
  else if t = ['S', 'E', 'T', 'P', 'R', 'I'] then some opSetPri
  else if t = ['C', 'O', 'M', 'P', 'L', 'E', 'T', 'E'] then some opComplete
  else none

/-- The opcode of a name of the document's own call syntax (R87). -/
def callNameOpcode (t : List Char) : Option (BitVec 4) :=
  if t = ['c', 'o', 'n', 'f', 'i', 'g', 'u', 'r', 'e'] then some opConfigure
  else if t = ['t', 'r', 'a', 'n', 's', 'l', 'a', 't', 'e'] then some opTranslate
  else if t = ['i', 'n', 'h', 'i', 'b', 'i', 't'] then some opInhibit
  else if t = ['r', 'e', 'l', 'e', 'a', 's', 'e'] then some opRelease
  else if t = ['m', 'a', 'y', '_', 'i', 'd', 'l', 'e'] then some opMayIdle
  else if t = ['e', 'n', 't', 'e', 'r', '_', 'i', 'd', 'l', 'e', '_', 'i', 'f', '_', 'a', 'l', 'l', 'o', 'w', 'e', 'd'] then
    some opIdle
  else if t = ['e', 'n', 'a', 'b', 'l', 'e'] then some opEnable
  else if t = ['d', 'i', 's', 'a', 'b', 'l', 'e'] then some opDisable
  else if t = ['s', 't', 'a', 'r', 't', '_', 't', 'r', 'a', 'n', 's', 'f', 'e', 'r'] then some opStart
  else if t = ['s', 'e', 't', '_', 'p', 'r', 'i', 'o', 'r', 'i', 't', 'y'] then some opSetPri
  else none

/-- A list of operands separated by commas; nothing but blanks is no operand. -/
def operandList (k : Config) (l : List Char) : Option (List Word) :=
  if trimBlanks l = [] then some [] else (splitCommas l).mapM fun t => operandValue k (trimBlanks t)

/-- The command with this opcode and these operands, in format order. -/
def commandOf (op : Option (BitVec 4)) (ops : Option (List Word)) : Option AsmLine :=
  match op, ops with
  | some n, some ws =>
    match decodeOperands n.toNat ws with
    | .ok i => some (.command i)
    | .error _ => none
  | _, _ => none

/-- The operands between the parentheses of the call syntax: what stands before the closing one, which ends the line. -/
def insideParens (l : List Char) : Option (List Char) :=
  match l.reverse with
  | ')' :: rest => some rest.reverse
  | _ => none

/-- One line of text (R87). -/
def parseLine (k : Config) (line : List Char) : Option AsmLine :=
  let l := trimBlanks (dropComment line)
  if l = [] then some .blank
  else if l = ['@', 'r', 'e', 't'] then some .ret
  else
    let name := l.takeWhile fun c => !isBlank c && c != '('
    let rest := (l.dropWhile fun c => !isBlank c && c != '(').dropWhile isBlank
    if name = ['@', 'i', 'r', 'q'] then
      match naturalValue rest with
      | some n => if h : n < 8 then some (.irq ⟨n, h⟩) else none
      | none => none
    else match rest with
      | '(' :: inner => commandOf (callNameOpcode name) ((insideParens inner).bind (operandList k))
      | _ => commandOf (mnemonicOpcode name) (operandList k rest)

/-- The schedule entries of a line: a command run whole, a handler entered and run to its callback, a callback returned
and its handler run to its end (DESIGN CHOICE, log entry 14). -/
def lineEvents : AsmLine → List Event
  | .blank => []
  | .command i => [.command (encode i)]
  | .irq c => [.enter c, .run, .run]
  | .ret => [.callbackReturn, .run, .run]

end Sys2Proof.Machine
end

