-- ==== Sys2Proof/WellFormed.lean ====
section
/-! DEFINITION. Checks on commands as syntax.

Every operand is a whole word, so every command can be encoded and decoded (R82: an operand outside its legal set is no
decode error). What remains to check is the caller's obligation `transfer_count >= 1` (R31, R116) and, apart from it, the
legal sets of R82, outside which the command is reported and not refused. -/

namespace Sys2Proof

/-- The command has a meaning in the spec: all but a CONFIGURE with `transfer_count = 0` (R31, R116). -/
def Instr.wellFormed : Instr → Bool
  | .configure o => o.transferCount != 0
  | .translate _ _ => true
  | .inhibit => true
  | .release => true
  | .mayIdle => true
  | .idle => true
  | .enable _ => true
  | .disable _ => true
  | .start _ => true
  | .setPri _ _ => true
  | .complete _ => true

/-- The legal values of a `channel` operand (R82). -/
def legalChannel (w : Word) : Bool := decide (w.toNat ≤ 7)

/-- The legal values of a buffer of `bytes` bytes at `address` (R82): the sentinel, or wholly inside the window. -/
def legalBuffer (k : Config) (address : Word) (bytes : Nat) : Bool :=
  decide (address = k.unusedSentinel) ||
    decide (k.windowBase.toNat ≤ address.toNat ∧ address.toNat - k.windowBase.toNat + bytes ≤ windowSize)

/-- The size in bytes of one buffer of a CONFIGURE whose `data_size` is legal (R115). -/
def legalBytes (k : Config) (o : ConfigOperands) : Nat :=
  o.transferCount.toNat * (if o.dataSize = 0 then 1 else k.wordBytes)

/-- Every operand of the command lies in its legal set (R82). -/
def Instr.operandsLegal (k : Config) : Instr → Bool
  | .configure o =>
    legalChannel o.channel && k.reqLegal.contains o.requestSource && decide (o.dataSize.toNat ≤ 1) &&
      decide (o.direction.toNat ≤ 1) && decide (o.interruptTiming.toNat ≤ 1) && decide (o.nullWriteMode.toNat ≤ 1) &&
      decide (o.addressingMode.toNat ≤ 2) && decide (o.operatingMode.toNat ≤ 3) &&
      legalBuffer k o.bufferA (legalBytes k o) && legalBuffer k o.bufferB (legalBytes k o)
  | .translate address size => legalBuffer k address size.toNat
  | .inhibit => true
  | .release => true
  | .mayIdle => true
  | .idle => true
  | .enable channel => legalChannel channel
  | .disable channel => legalChannel channel
  | .start channel => legalChannel channel
  | .setPri channel priority => legalChannel channel && decide (1 ≤ priority.toNat ∧ priority.toNat ≤ 7)
  | .complete channel => legalChannel channel

end Sys2Proof
end

