-- ==== Sys2Proof/Safety.lean ====
section
/-! DEFINITION. The terms statements use: the step relation of R66, the machine's invariant, frames, and what the
manual calls unsafe. -/

namespace Sys2Proof

open Machine

/-! ### The step relation, as R66 tabulates it -/

/-- Eligibility of channel `c` against the running context (R212). -/
def Eligible (s : State) (c : Chan) : Prop :=
  s.cfg.nestPolicy = .priority → s.curLevel < (s.slot c).ipl.toNat

/-- Channel `c` is takeable (R212). -/
def Takeable (s : State) (c : Chan) : Prop :=
  (s.slot c).ifFlag = true ∧ (s.slot c).ie = true ∧ (∀ h ∈ s.active, h.chan ≠ c) ∧ Eligible s c

/-- A command may be issued (R66, the enabling condition of G4). -/
def MayIssue (s : State) : Prop :=
  (s.active = [] ∧ s.idleHold = false ∧ s.mainOp = none) ∨
    ∃ h rest, s.active = h :: rest ∧ h.phase = .callback ∧ h.cmd = none

/-- The global steps of R66, one constructor per row (two for G3: a command's micro-step, a DISPATCH sequence's). -/
inductive GlobalStep (s : State) : State → Prop where
  | completion (c : Chan) : GlobalStep s (setIf c s)
  | entry (c : Chan) (htake : Takeable s c)
      (hmax : ∀ d, Takeable s d → (s.slot d).ipl.toNat ≤ (s.slot c).ipl.toNat) : GlobalStep s (enterHandler c s)
  | command {t : State} (k : Cont) (hrun : s.runningCmd = some k) (hstep : microStep k s = .next t) : GlobalStep s t
  | dispatch {t : State} (h : Handler) (rest : List Handler) (hact : s.active = h :: rest) (hcmd : h.cmd = none)
      (hstep : dispatchStep h.chan h.phase s = .next t) : GlobalStep s t
  | issue (i : Instr) (hmay : MayIssue s) (hidle : i = .idle → s.active = []) :
      GlobalStep s (s.setCmd (some (firstCont i)))
  | callbackReturn (h : Handler) (rest : List Handler) (hact : s.active = h :: rest) (hphase : h.phase = .callback)
      (hcmd : h.cmd = none) : GlobalStep s { s with active := { h with phase := .d3 } :: rest }
  | wake (hhold : s.idleHold = true) (hwake : s.cfg.wakePolicy = .onInterrupt → s.enteredSinceWait = true) :
      GlobalStep s { s with idleHold := false }
  | reset : GlobalStep s (resetBlock s)

/-! ### The invariant -/

/-- The stored fields of a slot are in their legal sets (10_state.md section 2). -/
structure SlotLegal (k : Config) (x : Slot) : Prop where
  req : x.req ∈ k.reqLegal
  sta : x.sta.toNat ≤ windowSize
  stb : x.stb.toNat ≤ windowSize
  ipl : iplMin ≤ x.ipl.toNat

/-- What a continuation's earlier checks have established: a legal request source from `v3` to `c2`, a legal priority
at `p3`. -/
def ContLegal (k : Config) : Cont → Prop
  | .v3 _ o => o.requestSource ∈ k.reqLegal
  | .v4 _ o => o.requestSource ∈ k.reqLegal
  | .v5 _ o => o.requestSource ∈ k.reqLegal
  | .v6 _ o => o.requestSource ∈ k.reqLegal
  | .v7 _ o => o.requestSource ∈ k.reqLegal
  | .v8 _ o => o.requestSource ∈ k.reqLegal
  | .c1 l => l.ops.requestSource ∈ k.reqLegal
  | .c2 l => l.ops.requestSource ∈ k.reqLegal
  | .p3 _ priority => iplMin ≤ priority.toNat ∧ priority.toNat ≤ iplMax
  | _ => True

/-- A continuation of IDLE, which only the mainline may run (R144, R149). -/
def IdleCont : Cont → Prop
  | .w1 => True
  | .w2 => True
  | .w3 => True
  | _ => False

/-- One entry of `ACTIVE` is as G2, G4, G5 and DISPATCH leave it (R50, R51, R186). -/
structure HandlerLegal (k : Config) (h : Handler) : Prop where
  lvl : iplMin ≤ h.lvl.toNat
  cmdPhase : h.cmd.isSome = true → h.phase = .callback
  latched : h.firstHalf.isSome = true ↔ h.phase ≠ .d1 ∧ h.phase ≠ .d2
  cmd : ∀ c, h.cmd = some c → ContLegal k c ∧ ¬ IdleCont c

/-- The invariant of the machine: what holds at every micro-step boundary of a run from reset. -/
structure Inv (s : State) : Prop where
  /-- The parameters are admissible (R7). -/
  cfg : s.cfg.Admissible
  /-- R41 -/
  counter : idleBase ≤ s.idleCnt.toNat ∧ s.idleCnt.toNat ≤ idleMax
  /-- R22, R29, R35 -/
  slots : ∀ c, SlotLegal s.cfg (s.slot c)
  /-- R50: a channel appears at most once in `ACTIVE`. -/
  distinct : (s.active.map Handler.chan).Nodup
  /-- R215: under `priority` the levels rise strictly inward. -/
  levels : s.cfg.nestPolicy = .priority → s.active.Pairwise fun inner outer => outer.lvl.toNat < inner.lvl.toNat
  handlers : ∀ h ∈ s.active, HandlerLegal s.cfg h
  mainline : ∀ c, s.mainOp = some c → ContLegal s.cfg c
  /-- R52: the mainline is held only inside IDLE's wait. -/
  hold : s.idleHold = true → s.mainOp = some .w3

/-- R38: the interrupt line of every channel is unmasked iff a callback is registered. Not an invariant: it fails
between `c13` and `c14` of a CONFIGURE, and can be left broken by a race (log entry 15). -/
def MaskMatchesCallback (s : State) : Prop := ∀ c, (s.slot c).ie = true ↔ (s.slot c).cb ≠ cbNone

/-- U7: the mainline waits in idle while a one-shot channel is enabled, so that the erratum may strike (log entry 13). -/
def ErratumExposed (s : State) : Prop :=
  s.idleHold = true ∧ ∃ c, (s.slot c).en = true ∧ oneShot (s.slot c).mode = true

/-! ### Operands, as R82, R132 and R133 say them -/

/-- A buffer of `bytes` bytes at `address` translates to `offset` (R132, R133). -/
def BufferAt (k : Config) (address : Word) (bytes offset : Nat) : Prop :=
  (address = k.unusedSentinel ∧ offset = 0) ∨
    (address ≠ k.unusedSentinel ∧ k.windowBase.toNat ≤ address.toNat ∧
      offset = address.toNat - k.windowBase.toNat ∧ offset + bytes ≤ windowSize)

/-- A buffer of `bytes` bytes at `address` is outside the window (R133). -/
def BufferOutside (k : Config) (address : Word) (bytes : Nat) : Prop :=
  address ≠ k.unusedSentinel ∧
    (address.toNat < k.windowBase.toNat ∨ windowSize < address.toNat - k.windowBase.toNat + bytes)

/-- The enumerated operands of a CONFIGURE are legal (R82, R112). -/
structure EnumeratedLegal (k : Config) (o : ConfigOperands) : Prop where
  requestSource : o.requestSource ∈ k.reqLegal
  dataSize : o.dataSize.toNat ≤ 1
  direction : o.direction.toNat ≤ 1
  interruptTiming : o.interruptTiming.toNat ≤ 1
  nullWriteMode : o.nullWriteMode.toNat ≤ 1
  addressingMode : o.addressingMode.toNat ≤ 2
  operatingMode : o.operatingMode.toNat ≤ 3

/-- The seven enumerated fields of a slot hold the codes of the operands (R114). -/
structure EnumeratedStored (o : ConfigOperands) (x : Slot) : Prop where
  req : x.req = o.requestSource
  size : dataSizeCode x.size = o.dataSize.toNat
  dir : directionCode x.dir = o.direction.toNat
  timing : timingCode x.timing = o.interruptTiming.toNat
  nullw : nullWriteCode x.nullw = o.nullWriteMode.toNat
  amode : addrModeCode x.amode = o.addressingMode.toNat
  mode : opModeCode x.mode = o.operatingMode.toNat

/-! ### Frames -/

/-- Parameters, contexts, continuations, the idle hold and what is scheduled are unchanged. -/
structure SameSequencing (s t : State) : Prop where
  cfg : t.cfg = s.cfg
  active : t.active = s.active
  mainOp : t.mainOp = s.mainOp
  idleHold : t.idleHold = s.idleHold
  enteredSinceWait : t.enteredSinceWait = s.enteredSinceWait
  schedule : t.schedule = s.schedule

/-- Every slot but `c` is unchanged. -/
def SameOtherSlots (s t : State) (c : Chan) : Prop := ∀ d, d ≠ c → t.slot d = s.slot d

/-- Every slot is unchanged. -/
def SameSlots (s t : State) : Prop := ∀ d, t.slot d = s.slot d

/-- The number of error reports among outputs. -/
def errorReports (l : List Output) : Nat :=
  l.countP fun o => match o with
    | .err _ _ _ => true
    | _ => false

/-- The number of responses among outputs. -/
def responses (l : List Output) : Nat :=
  l.countP fun o => match o with
    | .rsp _ => true
    | _ => false

end Sys2Proof
end

