-- ==== Sys2Proof/Certificates/Slice0/Obligations.lean ====
section
/-! DEFINITION. The statements for the provers, each with the rules of spec/ it formalises. -/

open Sys2Proof Sys2Proof.Machine

/-! ### Reset -/

/-- R240, R55: a reset pulse replaces the whole state by the reset state, with no response and no report. -/
def Obligations.ResetPulseRestoresResetState : Prop :=
  ∀ (s : State) (rest : List Event), s.schedule = .reset :: rest →
    ∃ t, step s = .next t ∧ t.idleCnt.toNat = 1000 ∧ t.active = [] ∧ t.mainOp = none ∧ t.idleHold = false ∧
      t.trace = s.trace ∧
      ∀ c, (t.slot c).half = false ∧ (t.slot c).cb = cbNone ∧ (t.slot c).ie = false ∧ (t.slot c).ifFlag = false ∧
        (t.slot c).en = false ∧ (t.slot c).ipl = s.cfg.iplReset ∧ (t.slot c).req = s.cfg.resetCfg.req ∧
        (t.slot c).size = s.cfg.resetCfg.size ∧ (t.slot c).dir = s.cfg.resetCfg.dir ∧
        (t.slot c).timing = s.cfg.resetCfg.timing ∧ (t.slot c).nullw = s.cfg.resetCfg.nullw ∧
        (t.slot c).amode = s.cfg.resetCfg.amode ∧ (t.slot c).mode = s.cfg.resetCfg.mode ∧
        (t.slot c).sta = s.cfg.resetCfg.sta ∧ (t.slot c).stb = s.cfg.resetCfg.stb ∧
        (t.slot c).pad = s.cfg.resetCfg.pad ∧ (t.slot c).cnt = s.cfg.resetCfg.cnt

/-- R241, for every choice of the OPEN parameters: mainline, every line masked, nothing pending, enabled or registered,
idle allowed (MAYIDLE answers 1), and the block does nothing of its own accord. -/
def Obligations.AfterResetBlockIsQuiet : Prop :=
  ∀ k : Config, (State.resetWith k).curLevel = 0 ∧ (State.resetWith k).active = [] ∧
    (∀ c, ((State.resetWith k).slot c).ie = false ∧ ((State.resetWith k).slot c).ifFlag = false ∧
      ((State.resetWith k).slot c).en = false ∧ ((State.resetWith k).slot c).cb = cbNone) ∧
    (State.resetWith k).idleCnt.toNat = 1000 ∧
    (∃ t, exec .mayIdle (State.resetWith k) = .next t ∧ t.trace = [.rsp (.ok (some 1))]) ∧
    step (State.resetWith k) = .next (State.resetWith k)

/-! ### Encoding -/

/-- R88: the five worked encodings, decoded, encoded, and assembled from their text. -/
def Obligations.WorkedEncodingsDecode : Prop :=
  (decode [0x0007, 0x0002] = .ok (.enable 2) ∧ encode (.enable 2) = [0x0007, 0x0002]) ∧
  (decode [0x000A, 0x0002, 0x0005] = .ok (.setPri 2 5) ∧ encode (.setPri 2 5) = [0x000A, 0x0002, 0x0005]) ∧
  (decode [0x0002, 0x4100, 0x0100] = .ok (.translate 0x4100 256) ∧
    encode (.translate 0x4100 256) = [0x0002, 0x4100, 0x0100]) ∧
  (decode [0x0003] = .ok .inhibit ∧ encode .inhibit = [0x0003]) ∧
  (decode [0x0001, 0x0002, 0x0000, 0x0000, 0x0000, 0x0001, 0x0000, 0x0000, 0x0003, 0x4000, 0x4100, 0x0300, 0x0100, 0x0001] =
      .ok (.configure ⟨2, 0, 0, 0, 1, 0, 0, 3, 0x4000, 0x4100, 0x0300, 256, 1⟩) ∧
    encode (.configure ⟨2, 0, 0, 0, 1, 0, 0, 3, 0x4000, 0x4100, 0x0300, 256, 1⟩) =
      [0x0001, 0x0002, 0x0000, 0x0000, 0x0000, 0x0001, 0x0000, 0x0000, 0x0003, 0x4000, 0x4100, 0x0300, 0x0100, 0x0001]) ∧
  (parseLine Config.default "ENABLE 2".toList = some (.command (.enable 2)) ∧
    parseLine Config.default "SETPRI 2, 5".toList = some (.command (.setPri 2 5)) ∧
    parseLine Config.default "TRANSLATE 0x4100, 256".toList = some (.command (.translate 0x4100 256)) ∧
    parseLine Config.default "INHIBIT".toList = some (.command .inhibit) ∧
    parseLine Config.default
        "CONFIGURE 2, 0, BYTE, P2M, FULL, NW_OFF, AM0, ONESHOT_PP, 0x4000, 0x4100, 0x0300, 256, 0x0001".toList =
      some (.command (.configure ⟨2, 0, 0, 0, 1, 0, 0, 3, 0x4000, 0x4100, 0x0300, 256, 1⟩)))

/-- R80, R81, R83: the packets that decode to a command are exactly its encoding: decoding an encoded command gives it
back with every operand, and nothing else decodes to it. -/
def Obligations.DecodeAcceptsExactlyEncodings : Prop :=
  ∀ (packet : List Word) (i : Instr), decode packet = .ok i ↔ packet = encode i

/-- R85: a header with a reserved bit set, or with an opcode outside 0x1..0xB, is refused, by `issue` and by `command`,
whatever operand words follow. -/
def Obligations.IllegalHeaderRefused : Prop :=
  ∀ (s : State) (header : Word) (ops : List Word) (rest : List Event),
    header.toNat / 16 ≠ 0 ∨ header.toNat % 16 = 0 ∨ 12 ≤ header.toNat % 16 →
    s.schedule = .issue (header :: ops) :: rest ∨ s.schedule = .command (header :: ops) :: rest →
    ∃ why, step s = .refused (.illegalCommand why)

/-! ### The step -/

/-- A step runs the decoded command: `step` on a scheduled packet that decodes to `i` is `exec i` on the state with the
packet taken; and the host's placing of a word is such a packet. Both are the model's own form and no rule of the spec:
that a packet runs whole in one step is log entry 4, how a word is placed log entry 5 (DESIGN CHOICE); G4 of R66 only
starts a command, which is the next statement. -/
def Obligations.StepRunsDecodedCommand : Prop :=
  (∀ (s : State) (packet : List Word) (rest : List Event) (i : Instr),
    s.schedule = .command packet :: rest → decode packet = .ok i → step s = exec i { s with schedule := rest }) ∧
  (∀ (s : State) (nbits w : Nat) (i : Instr),
    decodeTableWord nbits w = some i → step (s.withFetchWord nbits w) = exec i s)

/-- G4 (R66): a command placed on the port starts with its first micro-step as continuation (R51), in the innermost
context, and changes nothing else: of `ACTIVE` only the innermost entry's command, of the mainline nothing while a
handler is active. That the packet is the next entry of a schedule is the model's form (log entry 3). -/
def Obligations.IssueStartsAtFirstMicroStep : Prop :=
  ∀ (s : State) (packet : List Word) (rest : List Event) (i : Instr),
    s.schedule = .issue packet :: rest → decode packet = .ok i → MayIssue s → (i = .idle → s.active = []) →
    ∃ t, step s = .next t ∧ t.runningCmd = some (firstCont i) ∧ SameSlots s t ∧ t.idleCnt = s.idleCnt ∧
      (∀ h below, s.active = h :: below →
        t.active = { h with cmd := some (firstCont i) } :: below ∧ t.mainOp = s.mainOp) ∧
      (s.active = [] → t.active = [] ∧ t.mainOp = some (firstCont i)) ∧
      t.cfg = s.cfg ∧ t.idleHold = s.idleHold ∧ t.enteredSinceWait = s.enteredSinceWait ∧ t.trace = s.trace ∧
      t.schedule = rest

/-- The meaning of a command as a whole is its micro-steps (R9, R66), run one after the other with no other global step
in between, from its issue to its end (to its wait, for IDLE), with any bound that allows CONFIGURE's 23 micro-steps.
That a command has a meaning as a whole is log entry 4 (DESIGN CHOICE); the count of 23 (v1 to v8, c1 to c15), with no
micro-step of its own for a `return`, is log entry 8 (DEDUCED). -/
def Obligations.WholeCommandIsItsMicroSteps : Prop :=
  ∀ (i : Instr) (s : State) (n : Nat), 23 ≤ n → exec i s = onNext (issueCommand i s) (runCommand n)

/-- R66: the state changes only by the global steps. A step that takes a schedule entry is exactly one row of R66's table,
but for two forms of the model: a command taken whole is a finite sequence of them, at least its issue (log entry 4, DESIGN
CHOICE); a wake that finds no hold, or whose condition does not hold, is none of them and changes nothing (log entry 7,
DESIGN CHOICE). -/
def Obligations.StepTakesOnlyGlobalSteps : Prop :=
  ∀ (s t : State) (e : Event) (rest : List Event), s.schedule = e :: rest → step s = .next t →
    ((∀ packet, e ≠ .command packet) → e ≠ .wake → GlobalStep { s with schedule := rest } t) ∧
    (e = .wake → GlobalStep { s with schedule := rest } t ∨
      (t = { s with schedule := rest } ∧
        ¬ (s.idleHold = true ∧ (s.cfg.wakePolicy = .onInterrupt → s.enteredSinceWait = true)))) ∧
    (∀ packet, e = .command packet → Relation.TransGen GlobalStep { s with schedule := rest } t)

/-- R66, R72: every global step that is enabled can be the next one: some schedule entry makes `step` take it. -/
def Obligations.EveryGlobalStepCanBeTaken : Prop :=
  ∀ s t : State, GlobalStep s t → ∃ e, step { s with schedule := e :: s.schedule } = .next t

/-! ### The invariant -/

/-- The invariant holds after reset, for every admissible choice of the OPEN parameters, and for `State.reset`. -/
def Obligations.InvariantHoldsAfterReset : Prop :=
  (∀ k : Config, k.Admissible → Inv (State.resetWith k)) ∧ Inv State.reset

/-- Every step keeps the invariant: the counter stays in [1000, 2000] (R41), `IPL` in [1, 7], offsets in [0, 8192], `REQ`
in `REQ_LEGAL`, no channel twice in `ACTIVE` (R50), levels strictly rising under `priority` (R215), the mainline held
only inside IDLE's wait (R52). -/
def Obligations.EveryStepKeepsInvariant : Prop :=
  ∀ s t : State, Inv s → step s = .next t → Inv t

/-- R215: nesting depth is at most 8, and at most 7 under `priority`. -/
def Obligations.NestingDepthBounded : Prop :=
  ∀ s : State, Inv s → s.active.length ≤ 8 ∧ (s.cfg.nestPolicy = .priority → s.active.length ≤ 7)

/-- No step writes a parameter of the hardware (R130: "no operation changes them"). -/
def Obligations.ParametersNeverChange : Prop :=
  ∀ s t : State, step s = .next t → t.cfg = s.cfg

/-! ### CONFIGURE -/

/-- R110: a CONFIGURE with legal operands. -/
def Obligations.ConfigureAppliesWholeBundle : Prop :=
  ∀ (s : State) (o : ConfigOperands) (c : Chan) (a b : Nat), MayIssue s → o.channel.toNat = c.val →
    EnumeratedLegal s.cfg o → o.transferCount ≠ 0 → BufferAt s.cfg o.bufferA (legalBytes s.cfg o) a →
    BufferAt s.cfg o.bufferB (legalBytes s.cfg o) b →
    ∃ t, exec (.configure o) s = .next t ∧ t.trace = .rsp (.ok none) :: s.trace ∧
      SameSequencing s t ∧ SameOtherSlots s t c ∧ t.idleCnt = s.idleCnt ∧
      EnumeratedStored o (t.slot c) ∧ (t.slot c).en = false ∧ (t.slot c).sta.toNat = a ∧ (t.slot c).stb.toNat = b ∧
      (t.slot c).pad = o.peripheralAddress ∧ (t.slot c).cnt = o.transferCount ∧ (t.slot c).cb = o.callback ∧
      ((t.slot c).ie = true ↔ o.callback ≠ cbNone) ∧
      (t.slot c).ifFlag = (if o.callback = cbNone then false else (s.slot c).ifFlag) ∧
      (t.slot c).half = (s.slot c).half ∧ (t.slot c).ipl = (s.slot c).ipl

/-- R118, the rows of the two address failures: what was applied before the failing translation stays. -/
def Obligations.ConfigureAddressFailureIsNotRolledBack : Prop :=
  ∀ (s : State) (o : ConfigOperands) (c : Chan), MayIssue s → o.channel.toNat = c.val → EnumeratedLegal s.cfg o →
    o.transferCount ≠ 0 →
    (BufferOutside s.cfg o.bufferA (legalBytes s.cfg o) →
      ∃ t, exec (.configure o) s = .next t ∧
        t.trace = .rsp .aborted :: .err .invalidAddress 0x1 o.bufferA :: s.trace ∧
        SameSequencing s t ∧ SameOtherSlots s t c ∧ t.idleCnt = s.idleCnt ∧
        EnumeratedStored o (t.slot c) ∧ (t.slot c).en = false ∧ (t.slot c).sta = (s.slot c).sta ∧
        (t.slot c).stb = (s.slot c).stb ∧ (t.slot c).pad = (s.slot c).pad ∧ (t.slot c).cnt = (s.slot c).cnt ∧
        (t.slot c).cb = (s.slot c).cb ∧ (t.slot c).ie = (s.slot c).ie ∧ (t.slot c).ifFlag = (s.slot c).ifFlag ∧
        (t.slot c).half = (s.slot c).half ∧ (t.slot c).ipl = (s.slot c).ipl) ∧
    (∀ a, BufferAt s.cfg o.bufferA (legalBytes s.cfg o) a → BufferOutside s.cfg o.bufferB (legalBytes s.cfg o) →
      ∃ t, exec (.configure o) s = .next t ∧
        t.trace = .rsp .aborted :: .err .invalidAddress 0x1 o.bufferB :: s.trace ∧
        SameSequencing s t ∧ SameOtherSlots s t c ∧ t.idleCnt = s.idleCnt ∧
        EnumeratedStored o (t.slot c) ∧ (t.slot c).en = false ∧ (t.slot c).sta.toNat = a ∧
        (t.slot c).stb = (s.slot c).stb ∧ (t.slot c).pad = (s.slot c).pad ∧ (t.slot c).cnt = (s.slot c).cnt ∧
        (t.slot c).cb = (s.slot c).cb ∧ (t.slot c).ie = (s.slot c).ie ∧ (t.slot c).ifFlag = (s.slot c).ifFlag ∧
        (t.slot c).half = (s.slot c).half ∧ (t.slot c).ipl = (s.slot c).ipl)

/-- R111, R112: the channel is validated first, then the enumerated operands in signature order; the first illegal one is
reported, alone, and nothing else changes; in particular the channel is not disabled. It is so whatever the other
operands are; that an illegal enumerated operand is reported with `transfer_count = 0` too, where R31 and R116 give
CONFIGURE no meaning, is the model's reading (log entry 9, DEDUCED; vector V1.2 shows it for the channel). -/
def Obligations.ConfigureReportsFirstIllegalOperand : Prop :=
  ∀ (s : State) (o : ConfigOperands), MayIssue s →
    (7 < o.channel.toNat → exec (.configure o) s =
      .next { s with trace := .rsp .aborted :: .err .invalidChannelId 0x1 o.channel :: s.trace }) ∧
    (o.channel.toNat ≤ 7 →
    (o.requestSource ∉ s.cfg.reqLegal → exec (.configure o) s =
      .next { s with trace := .rsp .aborted :: .err .invalidRequestSource 0x1 o.requestSource :: s.trace }) ∧
    (o.requestSource ∈ s.cfg.reqLegal → 1 < o.dataSize.toNat → exec (.configure o) s =
      .next { s with trace := .rsp .aborted :: .err .invalidDataSize 0x1 o.dataSize :: s.trace }) ∧
    (o.requestSource ∈ s.cfg.reqLegal → o.dataSize.toNat ≤ 1 → 1 < o.direction.toNat → exec (.configure o) s =
      .next { s with trace := .rsp .aborted :: .err .invalidTransferDirection 0x1 o.direction :: s.trace }) ∧
    (o.requestSource ∈ s.cfg.reqLegal → o.dataSize.toNat ≤ 1 → o.direction.toNat ≤ 1 → 1 < o.interruptTiming.toNat →
      exec (.configure o) s =
      .next { s with trace := .rsp .aborted :: .err .invalidInterruptTiming 0x1 o.interruptTiming :: s.trace }) ∧
    (o.requestSource ∈ s.cfg.reqLegal → o.dataSize.toNat ≤ 1 → o.direction.toNat ≤ 1 → o.interruptTiming.toNat ≤ 1 →
      1 < o.nullWriteMode.toNat → exec (.configure o) s =
      .next { s with trace := .rsp .aborted :: .err .invalidNullWriteMode 0x1 o.nullWriteMode :: s.trace }) ∧
    (o.requestSource ∈ s.cfg.reqLegal → o.dataSize.toNat ≤ 1 → o.direction.toNat ≤ 1 → o.interruptTiming.toNat ≤ 1 →
      o.nullWriteMode.toNat ≤ 1 → 2 < o.addressingMode.toNat → exec (.configure o) s =
      .next { s with trace := .rsp .aborted :: .err .invalidAddressingMode 0x1 o.addressingMode :: s.trace }) ∧
    (o.requestSource ∈ s.cfg.reqLegal → o.dataSize.toNat ≤ 1 → o.direction.toNat ≤ 1 → o.interruptTiming.toNat ≤ 1 →
      o.nullWriteMode.toNat ≤ 1 → o.addressingMode.toNat ≤ 2 → 3 < o.operatingMode.toNat → exec (.configure o) s =
      .next { s with trace := .rsp .aborted :: .err .invalidOperatingMode 0x1 o.operatingMode :: s.trace }))

/-- R116: a CONFIGURE with `transfer_count = 0` is refused (once its channel and enumerated operands are legal: the
report of an illegal one comes first, log entry 9). -/
def Obligations.ConfigureOfZeroUnitsRefused : Prop :=
  ∀ (s : State) (o : ConfigOperands), MayIssue s → o.channel.toNat ≤ 7 → EnumeratedLegal s.cfg o → o.transferCount = 0 →
    exec (.configure o) s = .refused .zeroTransferCount

/-- R29: after a CONFIGURE that answered `ok`, both stored offsets lie in [0, 8191]. -/
def Obligations.ConfiguredOffsetsInsideWindow : Prop :=
  ∀ (s t : State) (o : ConfigOperands) (c : Chan), s.cfg.Admissible → o.channel.toNat = c.val →
    exec (.configure o) s = .next t → t.trace = .rsp (.ok none) :: s.trace →
    (t.slot c).sta.toNat ≤ 8191 ∧ (t.slot c).stb.toNat ≤ 8191

/-- R45, R70: a write of `c1` to `c12` of the application phase is seen on `CFG_OUT[c]` from the micro-step that makes
it, in whichever context it runs. `c13` to `c15` write `CB`, `IE` and `IF`, which are not on `CFG_OUT` as R45 lists it;
R56 says "all fields" (log entry 11, DEDUCED). -/
def Obligations.ConfigurationVisibleAtOnce : Prop :=
  ∀ (s : State) (l : ConfigLocals) (rest : List Event), s.schedule = .run :: rest → EnumeratedLegal s.cfg l.ops →
    (s.runningCmd = some (.c1 l) → ∃ t, step s = .next t ∧ (t.cfgOut l.chan).en = false) ∧
    (s.runningCmd = some (.c2 l) → ∃ t, step s = .next t ∧ (t.cfgOut l.chan).req = l.ops.requestSource) ∧
    (s.runningCmd = some (.c3 l) → ∃ t, step s = .next t ∧ dataSizeCode (t.cfgOut l.chan).size = l.ops.dataSize.toNat) ∧
    (s.runningCmd = some (.c4 l) → ∃ t, step s = .next t ∧ directionCode (t.cfgOut l.chan).dir = l.ops.direction.toNat) ∧
    (s.runningCmd = some (.c5 l) →
      ∃ t, step s = .next t ∧ timingCode (t.cfgOut l.chan).timing = l.ops.interruptTiming.toNat) ∧
    (s.runningCmd = some (.c6 l) →
      ∃ t, step s = .next t ∧ nullWriteCode (t.cfgOut l.chan).nullw = l.ops.nullWriteMode.toNat) ∧
    (s.runningCmd = some (.c7 l) →
      ∃ t, step s = .next t ∧ addrModeCode (t.cfgOut l.chan).amode = l.ops.addressingMode.toNat) ∧
    (s.runningCmd = some (.c8 l) →
      ∃ t, step s = .next t ∧ opModeCode (t.cfgOut l.chan).mode = l.ops.operatingMode.toNat) ∧
    (∀ a, s.runningCmd = some (.c9 l) → BufferAt s.cfg l.ops.bufferA (legalBytes s.cfg l.ops) a →
      ∃ t, step s = .next t ∧ (t.cfgOut l.chan).sta.toNat = a) ∧
    (∀ b, s.runningCmd = some (.c10 l) → BufferAt s.cfg l.ops.bufferB (legalBytes s.cfg l.ops) b →
      ∃ t, step s = .next t ∧ (t.cfgOut l.chan).stb.toNat = b) ∧
    (s.runningCmd = some (.c11 l) → ∃ t, step s = .next t ∧ (t.cfgOut l.chan).pad = l.ops.peripheralAddress) ∧
    (s.runningCmd = some (.c12 l) → ∃ t, step s = .next t ∧ (t.cfgOut l.chan).cnt = l.ops.transferCount)

/-! ### TRANSLATE -/

/-- R131 with R132, R133, R134: the sentinel translates to 0 whatever the size and wherever it lies; below the window, or
past its end, invalid-address is reported with the offending address and there is no value; every other `(address, size)`
gives `address - WINDOW_BASE`. No state changes. -/
def Obligations.TranslateFollowsItsPseudocode : Prop :=
  ∀ (s : State) (address size : Word), MayIssue s →
    decode [0x0002, address, size] = .ok (.translate address size) ∧
    (address = s.cfg.unusedSentinel →
      exec (.translate address size) s = .next { s with trace := .rsp (.ok (some 0)) :: s.trace }) ∧
    (address ≠ s.cfg.unusedSentinel → address.toNat < s.cfg.windowBase.toNat →
      exec (.translate address size) s =
        .next { s with trace := .rsp .aborted :: .err .invalidAddress 0x2 address :: s.trace }) ∧
    (address ≠ s.cfg.unusedSentinel → s.cfg.windowBase.toNat ≤ address.toNat →
      8192 < address.toNat - s.cfg.windowBase.toNat + size.toNat →
      exec (.translate address size) s =
        .next { s with trace := .rsp .aborted :: .err .invalidAddress 0x2 address :: s.trace }) ∧
    (address ≠ s.cfg.unusedSentinel → s.cfg.windowBase.toNat ≤ address.toNat →
      address.toNat - s.cfg.windowBase.toNat + size.toNat ≤ 8192 →
      ∃ offset : Word, offset.toNat = address.toNat - s.cfg.windowBase.toNat ∧
        exec (.translate address size) s = .next { s with trace := .rsp (.ok (some offset)) :: s.trace })

/-! ### INHIBIT, RELEASE, MAYIDLE, IDLE -/

/-- R146, with R141 and R142: unpreempted, INHIBIT maps n to min(n + 1, 2000) and RELEASE to max(n - 1, 1000), and so do
ENABLE and DISABLE of a channel in a one-shot mode; outside [1000, 2000] INHIBIT and RELEASE are no-ops. INHIBIT and
RELEASE change nothing else and report nothing. -/
def Obligations.CounterUpdatesSaturate : Prop :=
  ∀ s : State, MayIssue s →
    (∃ t, exec .inhibit s = .next t ∧ t.trace = .rsp (.ok none) :: s.trace ∧ SameSequencing s t ∧ SameSlots s t ∧
      (1000 ≤ s.idleCnt.toNat ∧ s.idleCnt.toNat ≤ 2000 → t.idleCnt.toNat = min (s.idleCnt.toNat + 1) 2000) ∧
      (s.idleCnt.toNat < 1000 ∨ 2000 < s.idleCnt.toNat → t.idleCnt = s.idleCnt)) ∧
    (∃ t, exec .release s = .next t ∧ t.trace = .rsp (.ok none) :: s.trace ∧ SameSequencing s t ∧ SameSlots s t ∧
      (1000 ≤ s.idleCnt.toNat ∧ s.idleCnt.toNat ≤ 2000 → t.idleCnt.toNat = max (s.idleCnt.toNat - 1) 1000) ∧
      (s.idleCnt.toNat < 1000 ∨ 2000 < s.idleCnt.toNat → t.idleCnt = s.idleCnt)) ∧
    (∀ (w : Word) (c : Chan), w.toNat = c.val →
      (s.slot c).mode = .oneShot ∨ (s.slot c).mode = .oneShotPingPong →
      1000 ≤ s.idleCnt.toNat → s.idleCnt.toNat ≤ 2000 →
      (∃ t, exec (.enable w) s = .next t ∧ t.idleCnt.toNat = min (s.idleCnt.toNat + 1) 2000) ∧
      (∃ t, exec (.disable w) s = .next t ∧ t.idleCnt.toNat = max (s.idleCnt.toNat - 1) 1000))

/-- R147: a lost update. A mainline RELEASE preempted after `r1` by a handler whose callback runs a whole INHIBIT writes,
when it resumes, the value it had read less 1: the INHIBIT is lost. -/
def Obligations.PreemptedReleaseLosesInhibit : Prop :=
  ∀ (s : State) (c : Chan), s.active = [] → s.mainOp = none → s.idleHold = false → 1001 ≤ s.idleCnt.toNat →
    s.idleCnt.toNat ≤ 1999 → (s.slot c).ifFlag = true → (s.slot c).ie = true → (s.slot c).cb ≠ cbNone →
    1 ≤ (s.slot c).ipl.toNat → (∀ d, d ≠ c → (s.slot d).ifFlag = false) →
    s.schedule = [.issue (encode .release), .run, .enter c, .run, .run, .command (encode .inhibit), .callbackReturn, .run,
      .run, .run] →
    ∃ t, core.run 10 s = .next t ∧ t.idleCnt.toNat = s.idleCnt.toNat - 1 ∧ t.active = [] ∧ t.mainOp = none

/-- R143: MAYIDLE (header word 0x0005) answers 1 iff the counter is 1000, else 0, and changes nothing. -/
def Obligations.MayIdleReadsBaseline : Prop :=
  decode [0x0005] = .ok .mayIdle ∧
  ∀ s : State, MayIssue s →
    (s.idleCnt.toNat = 1000 → exec .mayIdle s = .next { s with trace := .rsp (.ok (some 1)) :: s.trace }) ∧
    (s.idleCnt.toNat ≠ 1000 → exec .mayIdle s = .next { s with trace := .rsp (.ok (some 0)) :: s.trace })

/-- R144: from the mainline, IDLE returns at once when idle is inhibited, and otherwise emits `IDLE_WAIT` and holds the
mainline at `w3`; it writes neither the counter nor a slot. The bit that remembers a handler's entry since `w2` is then
cleared (the model's form of R145's "after w2": log entry 7). From a callback the model refuses it (U8, log entry 10). -/
def Obligations.IdleWaitsOnlyAtBaseline : Prop :=
  ∀ s : State, MayIssue s →
    (s.active = [] → s.idleCnt.toNat ≠ 1000 → exec .idle s = .next { s with trace := .rsp (.ok none) :: s.trace }) ∧
    (s.active = [] → s.idleCnt.toNat = 1000 →
      ∃ t, exec .idle s = .next t ∧ t.trace = .idleWait :: s.trace ∧ t.idleHold = true ∧
        t.enteredSinceWait = false ∧ t.mainOp = some .w3 ∧ SameSlots s t ∧ t.idleCnt = s.idleCnt ∧ t.active = [] ∧
        t.cfg = s.cfg ∧ t.schedule = s.schedule) ∧
    (s.active ≠ [] → exec .idle s = .refused .idleInCallback)

/-- R52: while `IDLE_HOLD` is 1 and no handler runs, the mainline takes no step and issues no command; a handler can
still be entered, and completion events are still recorded. The model's form: a step or a command that is not enabled is
refused (log entry 3, DESIGN CHOICE), and the entry of a handler leaves the hold as it is, under `on_interrupt` too, where
the wake is a step of its own (log entry 7, DEDUCED). -/
def Obligations.HeldMainlineTakesNoStep : Prop :=
  ∀ (s : State) (e : Event) (rest : List Event), s.idleHold = true → s.active = [] → s.schedule = e :: rest →
    (e = .run → step s = .refused .stepNotEnabled) ∧
    (∀ i, e = .command (encode i) ∨ e = .issue (encode i) → step s = .refused .stepNotEnabled) ∧
    (∀ c, e = .completion c → ∃ t, step s = .next t ∧ (t.slot c).ifFlag = true ∧ t.idleHold = true) ∧
    (∀ c, e = .enter c → Takeable s c → (∀ d, Takeable s d → (s.slot d).ipl.toNat ≤ (s.slot c).ipl.toNat) →
      ∃ t, step s = .next t ∧ t.active.length = 1 ∧ t.idleHold = true)

/-- R145 and G6 as the model reads them (log entry 7): under `env_input` the pulse `IDLE_WAKE` lifts the hold; under
`on_interrupt` the wake is a step of its own (DEDUCED), which lifts the hold if the bit `enteredSinceWait` is set and
does nothing otherwise (DESIGN CHOICE); every handler entry sets that bit (`w2` clears it, and nothing else writes it but
reset: `IdleHoldWriters`); after a wake that lifts the hold, under either policy, the mainline's IDLE ends with `ok`. -/
def Obligations.WakeFollowsPolicy : Prop :=
  ∀ (s : State) (rest : List Event), s.idleHold = true →
    (s.schedule = .wake :: rest → s.cfg.wakePolicy = .envInput →
      step s = .next { s with idleHold := false, schedule := rest }) ∧
    (s.schedule = .wake :: rest → s.cfg.wakePolicy = .onInterrupt → s.enteredSinceWait = true →
      step s = .next { s with idleHold := false, schedule := rest }) ∧
    (s.schedule = .wake :: rest → s.cfg.wakePolicy = .onInterrupt → s.enteredSinceWait = false →
      step s = .next { s with schedule := rest }) ∧
    (∀ c t, s.schedule = .enter c :: rest → step s = .next t → t.enteredSinceWait = true) ∧
    (s.schedule = .wake :: .run :: rest →
      s.cfg.wakePolicy = .envInput ∨ (s.cfg.wakePolicy = .onInterrupt ∧ s.enteredSinceWait = true) →
      s.active = [] → s.mainOp = some .w3 →
      ∃ t, core.run 2 s = .next t ∧ t.trace = .rsp (.ok none) :: s.trace ∧ t.mainOp = none ∧ t.idleHold = false ∧
        SameSlots s t ∧ t.idleCnt = s.idleCnt)

/-! ### ENABLE, DISABLE, START, SETPRI, COMPLETE -/

/-- R160, R203: the six operations with a `channel` operand report invalid-channel-id outside [0, 7], whatever the other
operands are, and change nothing. -/
def Obligations.InvalidChannelReportedAlone : Prop :=
  ∀ (s : State) (w : Word), MayIssue s → 7 < w.toNat →
    (∀ o : ConfigOperands, o.channel = w → exec (.configure o) s =
      .next { s with trace := .rsp .aborted :: .err .invalidChannelId 0x1 w :: s.trace }) ∧
    exec (.enable w) s = .next { s with trace := .rsp .aborted :: .err .invalidChannelId 0x7 w :: s.trace } ∧
    exec (.disable w) s = .next { s with trace := .rsp .aborted :: .err .invalidChannelId 0x8 w :: s.trace } ∧
    exec (.start w) s = .next { s with trace := .rsp .aborted :: .err .invalidChannelId 0x9 w :: s.trace } ∧
    (∀ p : Word, exec (.setPri w p) s =
      .next { s with trace := .rsp .aborted :: .err .invalidChannelId 0xA w :: s.trace }) ∧
    exec (.complete w) s = .next { s with trace := .rsp .aborted :: .err .invalidChannelId 0xB w :: s.trace }

/-- R161: ENABLE sets `EN` and, in a one-shot mode, raises the counter; nothing else changes. -/
def Obligations.EnableSetsEnAndInhibits : Prop :=
  ∀ (s : State) (w : Word) (c : Chan), MayIssue s → w.toNat = c.val →
    ∃ t, exec (.enable w) s = .next t ∧ t.trace = .rsp (.ok none) :: s.trace ∧ SameSequencing s t ∧
      SameOtherSlots s t c ∧ t.slot c = { s.slot c with en := true } ∧
      ((s.slot c).mode = .continuous ∨ (s.slot c).mode = .continuousPingPong → t.idleCnt = s.idleCnt) ∧
      ((s.slot c).mode = .oneShot ∨ (s.slot c).mode = .oneShotPingPong →
        (1000 ≤ s.idleCnt.toNat ∧ s.idleCnt.toNat ≤ 2000 → t.idleCnt.toNat = min (s.idleCnt.toNat + 1) 2000) ∧
        (s.idleCnt.toNat < 1000 ∨ 2000 < s.idleCnt.toNat → t.idleCnt = s.idleCnt))

/-- R163: DISABLE clears `EN` and `HALF` and, in a one-shot mode, lowers the counter; nothing else changes: a pending
interrupt stays pending, the callback stays registered. -/
def Obligations.DisableClearsEnHalfAndReleases : Prop :=
  ∀ (s : State) (w : Word) (c : Chan), MayIssue s → w.toNat = c.val →
    ∃ t, exec (.disable w) s = .next t ∧ t.trace = .rsp (.ok none) :: s.trace ∧ SameSequencing s t ∧
      SameOtherSlots s t c ∧ t.slot c = { s.slot c with en := false, half := false } ∧
      ((s.slot c).mode = .continuous ∨ (s.slot c).mode = .continuousPingPong → t.idleCnt = s.idleCnt) ∧
      ((s.slot c).mode = .oneShot ∨ (s.slot c).mode = .oneShotPingPong →
        (1000 ≤ s.idleCnt.toNat ∧ s.idleCnt.toNat ≤ 2000 → t.idleCnt.toNat = max (s.idleCnt.toNat - 1) 1000) ∧
        (s.idleCnt.toNat < 1000 ∨ 2000 < s.idleCnt.toNat → t.idleCnt = s.idleCnt))

/-- R165, R166: START (header word 0x0009) emits one pulse on `FORCE[c]`, for any valid channel whatever its slot holds, and
changes no state; an invalid channel is reported and no pulse is emitted. -/
def Obligations.StartPulsesForce : Prop :=
  ∀ (s : State) (w : Word), MayIssue s →
    decode [0x0009, w] = .ok (.start w) ∧
    (∀ c : Chan, w.toNat = c.val →
      exec (.start w) s = .next { s with trace := .rsp (.ok none) :: .force c :: s.trace }) ∧
    (7 < w.toNat → exec (.start w) s =
      .next { s with trace := .rsp .aborted :: .err .invalidChannelId 0x9 w :: s.trace })

/-- R167 (and R168 on a running handler): SETPRI (header word 0x000A) tests the channel, then the priority; a priority in
[1, 7] is written to `IPL` and nothing else changes, any other is reported and `IPL` keeps its value. A running handler
keeps the level it was entered at. -/
def Obligations.SetPriWritesLegalPriority : Prop :=
  ∀ (s : State) (w p : Word), MayIssue s →
    decode [0x000A, w, p] = .ok (.setPri w p) ∧
    (∀ c : Chan, w.toNat = c.val → 1 ≤ p.toNat ∧ p.toNat ≤ 7 →
      ∃ t, exec (.setPri w p) s = .next t ∧ t.trace = .rsp (.ok none) :: s.trace ∧ SameSequencing s t ∧
        SameOtherSlots s t c ∧ t.idleCnt = s.idleCnt ∧ ∃ v : Level, v.toNat = p.toNat ∧
        t.slot c = { s.slot c with ipl := v }) ∧
    (∀ c : Chan, w.toNat = c.val → p.toNat < 1 ∨ 7 < p.toNat →
      exec (.setPri w p) s = .next { s with trace := .rsp .aborted :: .err .invalidPriority 0xA p :: s.trace }) ∧
    (7 < w.toNat → exec (.setPri w p) s =
      .next { s with trace := .rsp .aborted :: .err .invalidChannelId 0xA w :: s.trace })

/-- R181: COMPLETE (header word 0x000B) sets `IF`, whatever the slot holds, and does not itself run the handler; an invalid
channel is reported and nothing changes. -/
def Obligations.CompleteSetsPending : Prop :=
  ∀ (s : State) (w : Word), MayIssue s →
    decode [0x000B, w] = .ok (.complete w) ∧
    (∀ c : Chan, w.toNat = c.val →
      ∃ t, exec (.complete w) s = .next t ∧ t.trace = .rsp (.ok none) :: s.trace ∧ SameSequencing s t ∧
        SameOtherSlots s t c ∧ t.slot c = { s.slot c with ifFlag := true } ∧ t.idleCnt = s.idleCnt) ∧
    (7 < w.toNat → exec (.complete w) s =
      .next { s with trace := .rsp .aborted :: .err .invalidChannelId 0xB w :: s.trace })

/-- R140, R161, R144: what the coordinator is for. An ENABLE of a one-shot channel, run whole from the mainline with the
counter in range, keeps an IDLE right after it from waiting. (U7 is what can still go wrong: log entry 13.) -/
def Obligations.EnabledOneShotBlocksIdle : Prop :=
  ∀ (s : State) (w : Word) (c : Chan), MayIssue s → s.active = [] → w.toNat = c.val →
    (s.slot c).mode = .oneShot ∨ (s.slot c).mode = .oneShotPingPong →
    1000 ≤ s.idleCnt.toNat → s.idleCnt.toNat ≤ 2000 →
    ∃ t u, exec (.enable w) s = .next t ∧ exec .idle t = .next u ∧ u.idleHold = false ∧ u.mainOp = none ∧
      u.trace = .rsp (.ok none) :: .rsp (.ok none) :: s.trace

/-- R82, R202: a command that may be issued and has a meaning is reported, once, iff an operand is outside its legal set;
otherwise no error is reported. -/
def Obligations.ReportedIffOperandIllegal : Prop :=
  ∀ (i : Instr) (s : State), MayIssue s → i.wellFormed = true → (i = .idle → s.active = []) →
    ∃ t out, exec i s = .next t ∧ t.trace = out ++ s.trace ∧
      errorReports out = if i.operandsLegal s.cfg = true then 0 else 1

/-- R200, R204: one operation emits at most one report and at most one response, and its response carries `ok = 0` iff it
reported. -/
def Obligations.AtMostOneReportPerCommand : Prop :=
  ∀ (i : Instr) (s t : State), exec i s = .next t →
    ∃ out, t.trace = out ++ s.trace ∧ errorReports out ≤ 1 ∧ responses out ≤ 1 ∧
      (.rsp .aborted ∈ out ↔ errorReports out = 1)

/-! ### Completion events, handlers, DISPATCH -/

/-- R180: the whole effect of a completion event is `CH[c].IF <- 1`, whatever the slot holds. -/
def Obligations.CompletionEventOnlySetsPending : Prop :=
  ∀ (s : State) (c : Chan) (rest : List Event), s.schedule = .completion c :: rest →
    ∃ t, step s = .next t ∧ t.slot c = { s.slot c with ifFlag := true } ∧ SameOtherSlots s t c ∧
      t.idleCnt = s.idleCnt ∧ t.active = s.active ∧ t.mainOp = s.mainOp ∧ t.idleHold = s.idleHold ∧
      t.enteredSinceWait = s.enteredSinceWait ∧ t.trace = s.trace

/-- R212, R213: the handler of channel c is entered iff c is takeable and no takeable channel has a larger `IPL`; R214:
entry pushes `(c, CH[c].IPL)` with continuation `d1` and changes nothing else of the block's state. The model's form: an
entry that is not enabled is refused (log entry 3, DESIGN CHOICE), the entry sets the bit `enteredSinceWait`, and the hold
stays, under `on_interrupt` too (log entry 7, DEDUCED). -/
def Obligations.HandlerEntryFollowsArbitration : Prop :=
  ∀ (s : State) (c : Chan) (rest : List Event), s.schedule = .enter c :: rest →
    (Takeable s c ∧ (∀ d, Takeable s d → (s.slot d).ipl.toNat ≤ (s.slot c).ipl.toNat) →
      ∃ t, step s = .next t ∧ t.active = ⟨c, (s.slot c).ipl, .d1, none, none⟩ :: s.active ∧ SameSlots s t ∧
        t.idleCnt = s.idleCnt ∧ t.mainOp = s.mainOp ∧ t.idleHold = s.idleHold ∧ t.enteredSinceWait = true ∧
        t.trace = s.trace) ∧
    (¬ (Takeable s c ∧ ∀ d, Takeable s d → (s.slot d).ipl.toNat ≤ (s.slot c).ipl.toNat) →
      step s = .refused .stepNotEnabled)

/-- R192: while `IE = 0` a completion event sets `IF` and no handler is entered (a scheduled entry is refused: log entry 3):
`HALF` does not change. -/
def Obligations.MaskedChannelIsNeverEntered : Prop :=
  ∀ (s : State) (c : Chan) (rest : List Event), (s.slot c).ie = false →
    (s.schedule = .completion c :: rest → ∃ t, step s = .next t ∧ (t.slot c).ifFlag = true ∧
      (t.slot c).half = (s.slot c).half ∧ (t.slot c).ie = false ∧ t.active = s.active ∧ ¬ Takeable t c) ∧
    (s.schedule = .enter c :: rest → step s = .refused .stepNotEnabled)

/-- R242, R251, R117: an event that was pending before a CONFIGURE from the mainline: with a callback the channel is
takeable at once, whether or not it is enabled; without one the event is cleared. -/
def Obligations.StaleEventMeetsNewCallback : Prop :=
  ∀ (s : State) (o : ConfigOperands) (c : Chan) (a b : Nat), MayIssue s → s.active = [] → o.channel.toNat = c.val →
    EnumeratedLegal s.cfg o → o.transferCount ≠ 0 → BufferAt s.cfg o.bufferA (legalBytes s.cfg o) a →
    BufferAt s.cfg o.bufferB (legalBytes s.cfg o) b → (s.slot c).ifFlag = true → 1 ≤ (s.slot c).ipl.toNat →
    ∃ t, exec (.configure o) s = .next t ∧ (t.slot c).en = false ∧
      (o.callback ≠ cbNone → Takeable t c) ∧
      (o.callback = cbNone → (t.slot c).ifFlag = false ∧ ¬ Takeable t c)

/-- R182, R189: the micro-steps of DISPATCH(c), each with its frame: `d1` clears `IF`; `d2` calls the callback with
`(c, HALF = 0)`, or faults with none; `d3` toggles `HALF`; `d4` pops `ACTIVE`. None of them touches the idle hold (R52,
R145). While the callback runs, the handler's own step is refused (log entry 3). -/
def Obligations.DispatchMicroSteps : Prop :=
  ∀ (s : State) (h : Handler) (below : List Handler) (rest : List Event), s.active = h :: below → h.cmd = none →
    s.schedule = .run :: rest →
    (h.phase = .d1 → ∃ t, step s = .next t ∧ t.slot h.chan = { s.slot h.chan with ifFlag := false } ∧
      SameOtherSlots s t h.chan ∧ t.active = { h with phase := .d2 } :: below ∧ t.idleCnt = s.idleCnt ∧
      t.mainOp = s.mainOp ∧ t.idleHold = s.idleHold ∧ t.enteredSinceWait = s.enteredSinceWait ∧ t.trace = s.trace) ∧
    (h.phase = .d2 → (s.slot h.chan).cb ≠ cbNone → ∃ t, step s = .next t ∧
      t.trace = .cbCall (s.slot h.chan).cb h.chan (!(s.slot h.chan).half) :: s.trace ∧ SameSlots s t ∧
      t.active = { h with phase := .callback, firstHalf := some (!(s.slot h.chan).half) } :: below ∧
      t.idleCnt = s.idleCnt ∧ t.mainOp = s.mainOp ∧ t.idleHold = s.idleHold ∧ t.enteredSinceWait = s.enteredSinceWait) ∧
    (h.phase = .d2 → (s.slot h.chan).cb = cbNone → step s = .fault (.noCallback h.chan)) ∧
    (h.phase = .callback → step s = .refused .stepNotEnabled) ∧
    (h.phase = .d3 → ∃ t, step s = .next t ∧ t.slot h.chan = { s.slot h.chan with half := !(s.slot h.chan).half } ∧
      SameOtherSlots s t h.chan ∧ t.active = { h with phase := .d4 } :: below ∧ t.idleCnt = s.idleCnt ∧
      t.mainOp = s.mainOp ∧ t.idleHold = s.idleHold ∧ t.enteredSinceWait = s.enteredSinceWait ∧ t.trace = s.trace) ∧
    (h.phase = .d4 → ∃ t, step s = .next t ∧ t.active = below ∧ SameSlots s t ∧ t.idleCnt = s.idleCnt ∧
      t.mainOp = s.mainOp ∧ t.idleHold = s.idleHold ∧ t.enteredSinceWait = s.enteredSinceWait ∧ t.trace = s.trace)

/-- R66, G5: a callback's return is taken exactly by a handler that waits at `d2` with no command in progress, and sends
it to `d3`; the idle hold stays (R52, R145). Everywhere else it is refused, which is the model's form (log entry 3, DESIGN
CHOICE). -/
def Obligations.CallbackReturnGoesToD3 : Prop :=
  ∀ (s : State) (rest : List Event), s.schedule = .callbackReturn :: rest →
    (∀ h below, s.active = h :: below → h.phase = .callback → h.cmd = none → ∃ t, step s = .next t ∧
      t.active = { h with phase := .d3 } :: below ∧ SameSlots s t ∧ t.idleCnt = s.idleCnt ∧ t.mainOp = s.mainOp ∧
      t.idleHold = s.idleHold ∧ t.enteredSinceWait = s.enteredSinceWait ∧ t.trace = s.trace) ∧
    ((∀ h below, s.active = h :: below → h.phase ≠ .callback ∨ h.cmd ≠ none) → step s = .refused .stepNotEnabled)

/-- R183: a completion event that arrives after `d1`, while the callback runs, sets `IF` again; it is not lost, and the
channel cannot be entered before the handler has returned (a scheduled entry is refused: log entry 3). -/
def Obligations.EventDuringCallbackIsKept : Prop :=
  ∀ (s : State) (h : Handler) (below : List Handler), s.active = h :: below → h.phase = .callback → h.cmd = none →
    (∀ g ∈ below, g.chan ≠ h.chan) → s.schedule = [.completion h.chan, .callbackReturn, .run, .run] →
    ∃ t, core.run 4 s = .next t ∧ (t.slot h.chan).ifFlag = true ∧ t.active = below ∧
      ∀ rest, step { s with schedule := .enter h.chan :: rest } = .refused .stepNotEnabled

/-- R191, for callbacks that issue no command: starting from `HALF = 0`, with one completion event for each DISPATCH, the
n-th DISPATCH passes `is_first_half = true` for odd n and false for even n, in every operating mode (R184). The outputs
stand newest first. -/
def Obligations.DispatchesAlternateHalves : Prop :=
  ∀ (n : Nat) (s : State) (c : Chan), s.active = [] → (s.slot c).half = false → (s.slot c).ie = true →
    (s.slot c).cb ≠ cbNone → 1 ≤ (s.slot c).ipl.toNat → (∀ d, d ≠ c → (s.slot d).ifFlag = false) →
    s.schedule = (List.replicate n
      [Event.completion c, .enter c, .run, .run, .callbackReturn, .run, .run]).flatten →
    ∃ t, core.run (7 * n) s = .next t ∧
      t.trace = ((List.range n).map fun j => Output.cbCall (s.slot c).cb c (j % 2 == 0)).reverse ++ s.trace ∧
      (t.slot c).half = (n % 2 == 1)

/-- R188: a callback that disables its own channel: `d3` toggles the value `HALF` has then, so that the slot ends with
`EN = 0` and `HALF = 1`. -/
def Obligations.SelfDisableLeavesBNext : Prop :=
  ∀ (s : State) (h : Handler) (below : List Handler) (w : Word), s.active = h :: below → h.phase = .callback →
    h.cmd = none → w.toNat = h.chan.val →
    s.schedule = [.command (encode (.disable w)), .callbackReturn, .run, .run] →
    ∃ t, core.run 4 s = .next t ∧ (t.slot h.chan).en = false ∧ (t.slot h.chan).half = true ∧ t.active = below

/-- R68: preemption is one-way: while a handler is active no step but a reset changes the mainline's continuation. -/
def Obligations.PreemptedMainlineKeepsItsPlace : Prop :=
  ∀ (s t : State) (e : Event) (rest : List Event), s.schedule = e :: rest → e ≠ .reset → s.active ≠ [] →
    step s = .next t → t.mainOp = s.mainOp

/-! ### Who writes what: rules about the whole machine -/

/-- R35: `IPL` is written only by SETPRI (and by reset). -/
def Obligations.PriorityWrittenOnlyBySetPri : Prop :=
  ∀ (s t : State) (e : Event) (rest : List Event) (c : Chan), s.schedule = e :: rest → e ≠ .reset →
    step s = .next t → (t.slot c).ipl ≠ (s.slot c).ipl →
    (∃ w p, e = .command (encode (.setPri w p)) ∧ w.toNat = c.val) ∨ (e = .run ∧ ∃ p, s.runningCmd = some (.p3 c p))

/-- R33, R119: `EN` is set only by ENABLE; no completion, no CONFIGURE and no handler sets it. -/
def Obligations.EnableBitSetOnlyByEnable : Prop :=
  ∀ (s t : State) (e : Event) (rest : List Event) (c : Chan), s.schedule = e :: rest →
    step s = .next t → (s.slot c).en = false → (t.slot c).en = true →
    (∃ w, e = .command (encode (.enable w)) ∧ w.toNat = c.val) ∨ (e = .run ∧ s.runningCmd = some (.e2 c))

/-- R34: `HALF` is toggled by step 3 of DISPATCH, cleared by DISABLE, and left alone by every other step (but reset). -/
def Obligations.HalfWrittenOnlyByDispatchAndDisable : Prop :=
  ∀ (s t : State) (e : Event) (rest : List Event) (c : Chan), s.schedule = e :: rest → e ≠ .reset →
    step s = .next t → (t.slot c).half ≠ (s.slot c).half →
    (∃ w, e = .command (encode (.disable w)) ∧ w.toNat = c.val ∧ (t.slot c).half = false) ∨
    (e = .run ∧ s.runningCmd = some (.x3 c) ∧ (t.slot c).half = false) ∨
    (e = .run ∧ ∃ h below, s.active = h :: below ∧ h.cmd = none ∧ h.phase = .d3 ∧ h.chan = c)

/-- R36: `IE` is written only by CONFIGURE (and by reset). -/
def Obligations.MaskWrittenOnlyByConfigure : Prop :=
  ∀ (s t : State) (e : Event) (rest : List Event) (c : Chan), s.schedule = e :: rest → e ≠ .reset →
    step s = .next t → (t.slot c).ie ≠ (s.slot c).ie →
    (∃ o, e = .command (encode (.configure o)) ∧ o.channel.toNat = c.val) ∨
    (e = .run ∧ ∃ l, s.runningCmd = some (.c14 l) ∧ l.chan = c)

/-- R37, R211: `IF` is set only by a completion event or COMPLETE, and cleared only by `d1` or by a CONFIGURE without
callback (and by reset). -/
def Obligations.PendingFlagWriters : Prop :=
  ∀ (s t : State) (e : Event) (rest : List Event) (c : Chan), s.schedule = e :: rest → e ≠ .reset →
    step s = .next t →
    ((s.slot c).ifFlag = false → (t.slot c).ifFlag = true →
      e = .completion c ∨ (∃ w, e = .command (encode (.complete w)) ∧ w.toNat = c.val) ∨
      (e = .run ∧ s.runningCmd = some (.f2 c))) ∧
    ((s.slot c).ifFlag = true → (t.slot c).ifFlag = false →
      (∃ o, e = .command (encode (.configure o)) ∧ o.channel.toNat = c.val ∧ o.callback = cbNone) ∨
      (e = .run ∧ ∃ l, s.runningCmd = some (.c15 l) ∧ l.chan = c ∧ l.ops.callback = cbNone) ∨
      (e = .run ∧ ∃ h below, s.active = h :: below ∧ h.cmd = none ∧ h.phase = .d1 ∧ h.chan = c))

/-- R40, R141, R142, R147: `IDLE_CNT` is written only by INHIBIT and RELEASE, as commands or as the last part of ENABLE and
DISABLE (and by reset). Their micro-steps `i2` and `r2` write the value that was read, plus or less 1, whatever the counter
has become since: the update is not atomic (U11), and the preempted context's own update is not lost. -/
def Obligations.CounterWrittenOnlyByInhibitAndRelease : Prop :=
  ∀ (s t : State) (e : Event) (rest : List Event), s.schedule = e :: rest → e ≠ .reset → step s = .next t →
    (t.idleCnt ≠ s.idleCnt →
      ((e = .command (encode .inhibit) ∨ ∃ w, e = .command (encode (.enable w))) ∧
        t.idleCnt.toNat = s.idleCnt.toNat + 1) ∨
      ((e = .command (encode .release) ∨ ∃ w, e = .command (encode (.disable w))) ∧
        t.idleCnt.toNat + 1 = s.idleCnt.toNat) ∨
      (e = .run ∧ ∃ v, s.runningCmd = some (.i2 v) ∧ 1000 ≤ v.toNat ∧ v.toNat ≤ 1999 ∧
        t.idleCnt.toNat = v.toNat + 1) ∨
      (e = .run ∧ ∃ v, s.runningCmd = some (.r2 v) ∧ 1001 ≤ v.toNat ∧ v.toNat ≤ 2000 ∧
        t.idleCnt.toNat + 1 = v.toNat)) ∧
    (∀ v, e = .run →
      (s.runningCmd = some (.i2 v) → 1000 ≤ v.toNat → v.toNat ≤ 1999 → t.idleCnt.toNat = v.toNat + 1) ∧
      (s.runningCmd = some (.r2 v) → 1001 ≤ v.toNat → v.toNat ≤ 2000 → t.idleCnt.toNat + 1 = v.toNat))

/-- Section 2 of 10_state.md: the configuration fields and the callback of a slot are written only by CONFIGURE (and by
reset). -/
def Obligations.ConfigurationWrittenOnlyByConfigure : Prop :=
  ∀ (s t : State) (e : Event) (rest : List Event) (c : Chan), s.schedule = e :: rest → e ≠ .reset →
    step s = .next t →
    (t.slot c).req ≠ (s.slot c).req ∨ (t.slot c).size ≠ (s.slot c).size ∨ (t.slot c).dir ≠ (s.slot c).dir ∨
      (t.slot c).timing ≠ (s.slot c).timing ∨ (t.slot c).nullw ≠ (s.slot c).nullw ∨
      (t.slot c).amode ≠ (s.slot c).amode ∨ (t.slot c).mode ≠ (s.slot c).mode ∨ (t.slot c).sta ≠ (s.slot c).sta ∨
      (t.slot c).stb ≠ (s.slot c).stb ∨ (t.slot c).pad ≠ (s.slot c).pad ∨ (t.slot c).cnt ≠ (s.slot c).cnt ∨
      (t.slot c).cb ≠ (s.slot c).cb →
    (∃ o, e = .command (encode (.configure o)) ∧ o.channel.toNat = c.val) ∨
    (e = .run ∧ ∃ l : ConfigLocals, l.chan = c ∧ s.runningCmd ∈
      [some (.c2 l), some (.c3 l), some (.c4 l), some (.c5 l), some (.c6 l), some (.c7 l), some (.c8 l), some (.c9 l),
        some (.c10 l), some (.c11 l), some (.c12 l), some (.c13 l)])

/-- R56: each output is emitted by the micro-step that names it: `FORCE[c]` by START, `CB_CALL` by `d2` of DISPATCH with
the callback and the half-indicator of that moment, `IDLE_WAIT` by IDLE, `ERR` and `RSP` by commands alone. -/
def Obligations.OutputsComeFromTheirOperations : Prop :=
  ∀ (s t : State) (e : Event) (rest : List Event), s.schedule = e :: rest → step s = .next t →
    ∃ out, t.trace = out ++ s.trace ∧
      (∀ c, .force c ∈ out → (∃ w, e = .command (encode (.start w)) ∧ w.toNat = c.val) ∨
        (e = .run ∧ s.runningCmd = some (.s2 c))) ∧
      (∀ handle c f, .cbCall handle c f ∈ out → e = .run ∧ ∃ h below, s.active = h :: below ∧ h.cmd = none ∧
        h.phase = .d2 ∧ h.chan = c ∧ handle = (s.slot c).cb ∧ f = !(s.slot c).half) ∧
      (.idleWait ∈ out → e = .command (encode .idle) ∨ (e = .run ∧ s.runningCmd = some .w2)) ∧
      (∀ kind op v, .err kind op v ∈ out → (∃ i, e = .command (encode i)) ∨ (e = .run ∧ s.runningCmd ≠ none)) ∧
      (∀ r, .rsp r ∈ out → (∃ i, e = .command (encode i)) ∨ (e = .run ∧ s.runningCmd ≠ none))

/-- R38, the part that holds: a command run whole keeps "interrupt enabled iff a callback is registered" for every
channel. (The full claim of R38 fails under a race: log entry 15 and the next statement.) -/
def Obligations.WholeCommandKeepsMaskMatching : Prop :=
  ∀ (i : Instr) (s t : State), MaskMatchesCallback s → exec i s = .next t → MaskMatchesCallback t

/-- A race against R38 (log entry 15, DEDUCED): from reset there is a run after which no operation is in progress and no
handler is active, and yet a channel's line is unmasked with no callback registered: a CONFIGURE with a callback is
preempted between `c13` and `c14` by another channel's callback, which configures the same channel without one. -/
def Obligations.RaceLeavesLineUnmaskedWithoutCallback : Prop :=
  ∃ (n : Nat) (events : List Event) (t : State) (c : Chan),
    core.run n { State.reset with schedule := events } = .next t ∧ t.active = [] ∧ t.mainOp = none ∧ t.schedule = [] ∧
      (t.slot c).ie = true ∧ (t.slot c).cb = cbNone

/-- R33, N9: `EN` is cleared only by DISABLE, by `c1` of CONFIGURE, and by reset: no completion event, no handler and no
start clears it, in any operating mode. -/
def Obligations.EnableBitClearedOnlyByDisableAndConfigure : Prop :=
  ∀ (s t : State) (e : Event) (rest : List Event) (c : Chan), s.schedule = e :: rest → e ≠ .reset →
    step s = .next t → (s.slot c).en = true → (t.slot c).en = false →
    (∃ w, e = .command (encode (.disable w)) ∧ w.toNat = c.val) ∨ (e = .run ∧ s.runningCmd = some (.x2 c)) ∨
    (∃ o, e = .command (encode (.configure o)) ∧ o.channel.toNat = c.val) ∨
    (e = .run ∧ ∃ l, s.runningCmd = some (.c1 l) ∧ l.chan = c)

/-- R52, R66 (G6), R225: `IDLE_HOLD` is set only by IDLE, run whole with the counter at the baseline or at its `w2`, and
cleared only by the wake (and by reset). The bit of log entry 7 that stands for "a handler has been entered after `w2`"
is cleared by the same two, in the very step that sets the hold, and set only by a handler's entry. -/
def Obligations.IdleHoldWriters : Prop :=
  ∀ (s t : State) (e : Event) (rest : List Event), s.schedule = e :: rest → e ≠ .reset → step s = .next t →
    (s.idleHold = false → t.idleHold = true → t.enteredSinceWait = false ∧
      ((e = .command (encode .idle) ∧ s.active = [] ∧ s.idleCnt.toNat = 1000) ∨
        (e = .run ∧ s.runningCmd = some .w2))) ∧
    (s.idleHold = true → t.idleHold = false →
      e = .wake ∧ (s.cfg.wakePolicy = .onInterrupt → s.enteredSinceWait = true)) ∧
    (s.enteredSinceWait = true → t.enteredSinceWait = false → t.idleHold = true ∧
      (e = .command (encode .idle) ∨ (e = .run ∧ s.runningCmd = some .w2))) ∧
    (s.enteredSinceWait = false → t.enteredSinceWait = true → ∃ c, e = .enter c)

/-- R50, R51, R68, R220: a step other than a reset either enters a handler, which pushes its entry on `ACTIVE`; or is the
`d4` of the innermost handler, which pops it; or keeps `ACTIVE`: every entry below the innermost as it was, with its
continuation, latch and command, and of the innermost the channel and the level; its latch is written only at `d2`, its
place in DISPATCH only by its own step and by the callback's return. -/
def Obligations.ActiveWriters : Prop :=
  ∀ (s t : State) (e : Event) (rest : List Event), s.schedule = e :: rest → e ≠ .reset → step s = .next t →
    (∃ c, e = .enter c ∧ t.active = ⟨c, (s.slot c).ipl, .d1, none, none⟩ :: s.active) ∨
    (∃ h, e = .run ∧ s.active = h :: t.active ∧ h.cmd = none ∧ h.phase = .d4) ∨
    (s.active = [] ∧ t.active = []) ∨
    (∃ h h' below, s.active = h :: below ∧ t.active = h' :: below ∧ h'.chan = h.chan ∧ h'.lvl = h.lvl ∧
      (h'.firstHalf ≠ h.firstHalf → e = .run ∧ h.cmd = none ∧ h.phase = .d2) ∧
      (h'.phase ≠ h.phase → h.cmd = none ∧ (e = .run ∨ e = .callbackReturn)))

/-- R147, U11 (vector V3.15): a lost update the other way round. A mainline INHIBIT, or an ENABLE of a one-shot channel in its
last part, that is preempted after `i1` by a handler whose callback runs a whole RELEASE writes, when it resumes, the value
it had read plus 1: the RELEASE is lost. -/
def Obligations.PreemptedInhibitLosesRelease : Prop :=
  ∀ (s : State) (c : Chan), s.active = [] → s.mainOp = none → s.idleHold = false → 1001 ≤ s.idleCnt.toNat →
    s.idleCnt.toNat ≤ 1999 → (s.slot c).ifFlag = true → (s.slot c).ie = true → (s.slot c).cb ≠ cbNone →
    1 ≤ (s.slot c).ipl.toNat → (∀ d, d ≠ c → (s.slot d).ifFlag = false) →
    (s.schedule = [.issue (encode .inhibit), .run, .enter c, .run, .run, .command (encode .release), .callbackReturn,
        .run, .run, .run] →
      ∃ t, core.run 10 s = .next t ∧ t.idleCnt.toNat = s.idleCnt.toNat + 1 ∧ t.active = [] ∧ t.mainOp = none) ∧
    (∀ (w : Word) (d : Chan), w.toNat = d.val → (s.slot d).mode = .oneShot ∨ (s.slot d).mode = .oneShotPingPong →
      s.schedule = [.issue (encode (.enable w)), .run, .run, .run, .run, .enter c, .run, .run,
        .command (encode .release), .callbackReturn, .run, .run, .run] →
      ∃ t, core.run 13 s = .next t ∧ t.idleCnt.toNat = s.idleCnt.toNat + 1 ∧ t.active = [] ∧ t.mainOp = none ∧
        (t.slot d).en = true)
end

