-- ==== Sys2Proof/Laws/Decode.lean ====
section
/-! SUPPORT. The fields of a header word (R80), and the length of an encoding. -/

namespace Sys2Proof

/-- A header made from an opcode has clear reserved bits. -/
@[simp] theorem headerReserved_setWidth (n : BitVec 4) : headerReserved (n.setWidth 16) = 0 := by
  revert n
  decide

/-- A header made from an opcode has that opcode. -/
@[simp] theorem headerOpcode_setWidth (n : BitVec 4) : headerOpcode (n.setWidth 16) = n := by
  revert n
  decide

/-- A header is its reserved bits and its opcode. -/
theorem header_toNat (h : Word) : h.toNat = 16 * (headerReserved h).toNat + (headerOpcode h).toNat := by
  simp only [headerReserved, headerOpcode, BitVec.extractLsb'_toNat, Nat.shiftRight_eq_div_pow]
  have := h.isLt
  omega

/-- A header whose reserved bits are clear is its opcode, widened. -/
theorem header_eq_of_reserved {h : Word} (hr : headerReserved h = 0) : h = (headerOpcode h).setWidth 16 := by
  apply BitVec.eq_of_toNat_eq
  have := header_toNat h
  have hlt := (headerOpcode h).isLt
  rw [hr] at this
  simp only [BitVec.toNat_setWidth, Nat.mod_eq_of_lt (show (headerOpcode h).toNat < 2 ^ 16 by omega)]
  simpa using this

/-- What the decoder reads after a header with clear reserved bits. -/
theorem decode_cons (n : BitVec 4) (ops : List Word) :
    decode (n.setWidth 16 :: ops) = decodeOperands n.toNat ops := by
  simp [decode]

/-- The port delivers, for the header of a command's encoding, as many words as the encoding has (R80). -/
theorem encode_length (i : Instr) : (encode i).length = packetLength (i.opcode.setWidth 16) := by
  cases i <;> simp [encode, Instr.operandWords, packetLength] <;> rfl

end Sys2Proof
end

