-- ==== Sys2Proof/Laws/State.lean ====
section
/-! SUPPORT. The small lemmas of the state: one per field per operation, and the read-after-write laws of the slots. -/

namespace Sys2Proof.Machine

/-! ### The constants of R6 -/

@[simp] theorem windowSize_eq : windowSize = 8192 := rfl
@[simp] theorem idleBase_eq : idleBase = 1000 := rfl
@[simp] theorem idleMax_eq : idleMax = 2000 := rfl
@[simp] theorem iplMin_eq : iplMin = 1 := rfl
@[simp] theorem iplMax_eq : iplMax = 7 := rfl

/-! ### Slots -/

theorem State.slot_modSlot (s : State) (c d : Chan) (f : Slot → Slot) :
    (s.modSlot c f).slot d = if d = c then f (s.slot c) else s.slot d := by
  unfold slot modSlot
  rcases eq_or_ne d c with rfl | h
  · simp [slot]
  · have : (c : Nat) ≠ d := fun e => h (Fin.ext e.symm)
    simp [this, h]

@[simp] theorem State.slot_modSlot_same (s : State) (c : Chan) (f : Slot → Slot) :
    (s.modSlot c f).slot c = f (s.slot c) := by simp [State.slot_modSlot]

theorem State.slot_modSlot_other (s : State) {c d : Chan} (f : Slot → Slot) (h : d ≠ c) :
    (s.modSlot c f).slot d = s.slot d := by simp [State.slot_modSlot, h]

@[simp] theorem State.modSlot_modSlot (s : State) (c : Chan) (f g : Slot → Slot) :
    (s.modSlot c f).modSlot c g = s.modSlot c (fun x => g (f x)) := by
  have := s.slot_modSlot_same c f
  simp only [State.modSlot] at *
  simp [this]

@[simp] theorem State.modSlot_id (s : State) (c : Chan) : s.modSlot c (fun x => x) = s := by
  simp [State.modSlot, State.slot]

/-! ### A write of one field of a slot leaves the others of every slot alone -/

theorem State.slot_modSlot_req (s : State) (c d : Chan) (f : Slot → Slot) (h : ∀ x, (f x).req = x.req) :
    ((s.modSlot c f).slot d).req = (s.slot d).req := by
  rw [State.slot_modSlot]
  split
  · rename_i e
    rw [h, e]
  · rfl

theorem State.slot_modSlot_size (s : State) (c d : Chan) (f : Slot → Slot) (h : ∀ x, (f x).size = x.size) :
    ((s.modSlot c f).slot d).size = (s.slot d).size := by
  rw [State.slot_modSlot]
  split
  · rename_i e
    rw [h, e]
  · rfl

theorem State.slot_modSlot_dir (s : State) (c d : Chan) (f : Slot → Slot) (h : ∀ x, (f x).dir = x.dir) :
    ((s.modSlot c f).slot d).dir = (s.slot d).dir := by
  rw [State.slot_modSlot]
  split
  · rename_i e
    rw [h, e]
  · rfl

theorem State.slot_modSlot_timing (s : State) (c d : Chan) (f : Slot → Slot) (h : ∀ x, (f x).timing = x.timing) :
    ((s.modSlot c f).slot d).timing = (s.slot d).timing := by
  rw [State.slot_modSlot]
  split
  · rename_i e
    rw [h, e]
  · rfl

theorem State.slot_modSlot_nullw (s : State) (c d : Chan) (f : Slot → Slot) (h : ∀ x, (f x).nullw = x.nullw) :
    ((s.modSlot c f).slot d).nullw = (s.slot d).nullw := by
  rw [State.slot_modSlot]
  split
  · rename_i e
    rw [h, e]
  · rfl

theorem State.slot_modSlot_amode (s : State) (c d : Chan) (f : Slot → Slot) (h : ∀ x, (f x).amode = x.amode) :
    ((s.modSlot c f).slot d).amode = (s.slot d).amode := by
  rw [State.slot_modSlot]
  split
  · rename_i e
    rw [h, e]
  · rfl

theorem State.slot_modSlot_mode (s : State) (c d : Chan) (f : Slot → Slot) (h : ∀ x, (f x).mode = x.mode) :
    ((s.modSlot c f).slot d).mode = (s.slot d).mode := by
  rw [State.slot_modSlot]
  split
  · rename_i e
    rw [h, e]
  · rfl

theorem State.slot_modSlot_sta (s : State) (c d : Chan) (f : Slot → Slot) (h : ∀ x, (f x).sta = x.sta) :
    ((s.modSlot c f).slot d).sta = (s.slot d).sta := by
  rw [State.slot_modSlot]
  split
  · rename_i e
    rw [h, e]
  · rfl

theorem State.slot_modSlot_stb (s : State) (c d : Chan) (f : Slot → Slot) (h : ∀ x, (f x).stb = x.stb) :
    ((s.modSlot c f).slot d).stb = (s.slot d).stb := by
  rw [State.slot_modSlot]
  split
  · rename_i e
    rw [h, e]
  · rfl

theorem State.slot_modSlot_pad (s : State) (c d : Chan) (f : Slot → Slot) (h : ∀ x, (f x).pad = x.pad) :
    ((s.modSlot c f).slot d).pad = (s.slot d).pad := by
  rw [State.slot_modSlot]
  split
  · rename_i e
    rw [h, e]
  · rfl

theorem State.slot_modSlot_cnt (s : State) (c d : Chan) (f : Slot → Slot) (h : ∀ x, (f x).cnt = x.cnt) :
    ((s.modSlot c f).slot d).cnt = (s.slot d).cnt := by
  rw [State.slot_modSlot]
  split
  · rename_i e
    rw [h, e]
  · rfl

theorem State.slot_modSlot_cb (s : State) (c d : Chan) (f : Slot → Slot) (h : ∀ x, (f x).cb = x.cb) :
    ((s.modSlot c f).slot d).cb = (s.slot d).cb := by
  rw [State.slot_modSlot]
  split
  · rename_i e
    rw [h, e]
  · rfl

theorem State.slot_modSlot_en (s : State) (c d : Chan) (f : Slot → Slot) (h : ∀ x, (f x).en = x.en) :
    ((s.modSlot c f).slot d).en = (s.slot d).en := by
  rw [State.slot_modSlot]
  split
  · rename_i e
    rw [h, e]
  · rfl

theorem State.slot_modSlot_half (s : State) (c d : Chan) (f : Slot → Slot) (h : ∀ x, (f x).half = x.half) :
    ((s.modSlot c f).slot d).half = (s.slot d).half := by
  rw [State.slot_modSlot]
  split
  · rename_i e
    rw [h, e]
  · rfl

theorem State.slot_modSlot_ipl (s : State) (c d : Chan) (f : Slot → Slot) (h : ∀ x, (f x).ipl = x.ipl) :
    ((s.modSlot c f).slot d).ipl = (s.slot d).ipl := by
  rw [State.slot_modSlot]
  split
  · rename_i e
    rw [h, e]
  · rfl

theorem State.slot_modSlot_ie (s : State) (c d : Chan) (f : Slot → Slot) (h : ∀ x, (f x).ie = x.ie) :
    ((s.modSlot c f).slot d).ie = (s.slot d).ie := by
  rw [State.slot_modSlot]
  split
  · rename_i e
    rw [h, e]
  · rfl

theorem State.slot_modSlot_ifFlag (s : State) (c d : Chan) (f : Slot → Slot) (h : ∀ x, (f x).ifFlag = x.ifFlag) :
    ((s.modSlot c f).slot d).ifFlag = (s.slot d).ifFlag := by
  rw [State.slot_modSlot]
  split
  · rename_i e
    rw [h, e]
  · rfl

/-! ### Equal states -/

/-- Two states with the same slots and the same other fields are equal. -/
theorem State.ext_slots {s t : State} (hs : ∀ c, s.slot c = t.slot c) (h : { s with ch := t.ch } = t) : s = t := by
  have hch : s.ch = t.ch := by
    ext i hi : 1
    exact hs ⟨i, hi⟩
  rw [← h, ← hch]

/-! ### The fields an operation leaves alone, and the one it writes -/

@[simp] theorem State.modSlot_cfg (s : State) (c : Chan) (f : Slot → Slot) : (s.modSlot c f).cfg = s.cfg := rfl
@[simp] theorem State.modSlot_idleCnt (s : State) (c : Chan) (f : Slot → Slot) : (s.modSlot c f).idleCnt = s.idleCnt := rfl
@[simp] theorem State.modSlot_active (s : State) (c : Chan) (f : Slot → Slot) : (s.modSlot c f).active = s.active := rfl
@[simp] theorem State.modSlot_mainOp (s : State) (c : Chan) (f : Slot → Slot) : (s.modSlot c f).mainOp = s.mainOp := rfl
@[simp] theorem State.modSlot_idleHold (s : State) (c : Chan) (f : Slot → Slot) : (s.modSlot c f).idleHold = s.idleHold := rfl
@[simp] theorem State.modSlot_enteredSinceWait (s : State) (c : Chan) (f : Slot → Slot) : (s.modSlot c f).enteredSinceWait = s.enteredSinceWait := rfl
@[simp] theorem State.modSlot_schedule (s : State) (c : Chan) (f : Slot → Slot) : (s.modSlot c f).schedule = s.schedule := rfl
@[simp] theorem State.modSlot_trace (s : State) (c : Chan) (f : Slot → Slot) : (s.modSlot c f).trace = s.trace := rfl

@[simp] theorem State.emit_cfg (s : State) (o : Output) : (s.emit o).cfg = s.cfg := rfl
@[simp] theorem State.emit_idleCnt (s : State) (o : Output) : (s.emit o).idleCnt = s.idleCnt := rfl
@[simp] theorem State.emit_active (s : State) (o : Output) : (s.emit o).active = s.active := rfl
@[simp] theorem State.emit_mainOp (s : State) (o : Output) : (s.emit o).mainOp = s.mainOp := rfl
@[simp] theorem State.emit_idleHold (s : State) (o : Output) : (s.emit o).idleHold = s.idleHold := rfl
@[simp] theorem State.emit_enteredSinceWait (s : State) (o : Output) : (s.emit o).enteredSinceWait = s.enteredSinceWait := rfl
@[simp] theorem State.emit_schedule (s : State) (o : Output) : (s.emit o).schedule = s.schedule := rfl
@[simp] theorem State.emit_slot (s : State) (o : Output) (d : Chan) : (s.emit o).slot d = s.slot d := rfl
@[simp] theorem State.emit_trace (s : State) (o : Output) : (s.emit o).trace = o :: s.trace := rfl

@[simp] theorem State.respond_cfg (s : State) (v : Option Word) : (s.respond v).cfg = s.cfg := rfl
@[simp] theorem State.respond_idleCnt (s : State) (v : Option Word) : (s.respond v).idleCnt = s.idleCnt := rfl
@[simp] theorem State.respond_active (s : State) (v : Option Word) : (s.respond v).active = s.active := rfl
@[simp] theorem State.respond_mainOp (s : State) (v : Option Word) : (s.respond v).mainOp = s.mainOp := rfl
@[simp] theorem State.respond_idleHold (s : State) (v : Option Word) : (s.respond v).idleHold = s.idleHold := rfl
@[simp] theorem State.respond_enteredSinceWait (s : State) (v : Option Word) : (s.respond v).enteredSinceWait = s.enteredSinceWait := rfl
@[simp] theorem State.respond_schedule (s : State) (v : Option Word) : (s.respond v).schedule = s.schedule := rfl
@[simp] theorem State.respond_slot (s : State) (v : Option Word) (d : Chan) : (s.respond v).slot d = s.slot d := rfl
@[simp] theorem State.respond_trace (s : State) (v : Option Word) : (s.respond v).trace = .rsp (.ok v) :: s.trace := rfl

@[simp] theorem State.raiseError_cfg (s : State) (k : ErrorKind) (op : BitVec 4) (v : Word) : (s.raiseError k op v).cfg = s.cfg := rfl
@[simp] theorem State.raiseError_idleCnt (s : State) (k : ErrorKind) (op : BitVec 4) (v : Word) : (s.raiseError k op v).idleCnt = s.idleCnt := rfl
@[simp] theorem State.raiseError_active (s : State) (k : ErrorKind) (op : BitVec 4) (v : Word) : (s.raiseError k op v).active = s.active := rfl
@[simp] theorem State.raiseError_mainOp (s : State) (k : ErrorKind) (op : BitVec 4) (v : Word) : (s.raiseError k op v).mainOp = s.mainOp := rfl
@[simp] theorem State.raiseError_idleHold (s : State) (k : ErrorKind) (op : BitVec 4) (v : Word) : (s.raiseError k op v).idleHold = s.idleHold := rfl
@[simp] theorem State.raiseError_enteredSinceWait (s : State) (k : ErrorKind) (op : BitVec 4) (v : Word) : (s.raiseError k op v).enteredSinceWait = s.enteredSinceWait := rfl
@[simp] theorem State.raiseError_schedule (s : State) (k : ErrorKind) (op : BitVec 4) (v : Word) : (s.raiseError k op v).schedule = s.schedule := rfl
@[simp] theorem State.raiseError_slot (s : State) (k : ErrorKind) (op : BitVec 4) (v : Word) (d : Chan) : (s.raiseError k op v).slot d = s.slot d := rfl
@[simp] theorem State.raiseError_trace (s : State) (k : ErrorKind) (op : BitVec 4) (v : Word) : (s.raiseError k op v).trace = .rsp .aborted :: .err k op v :: s.trace := rfl

@[simp] theorem State.setCmd_cfg (s : State) (k : Option Cont) : (s.setCmd k).cfg = s.cfg := by
  unfold State.setCmd; split <;> rfl
@[simp] theorem State.setCmd_idleCnt (s : State) (k : Option Cont) : (s.setCmd k).idleCnt = s.idleCnt := by
  unfold State.setCmd; split <;> rfl
@[simp] theorem State.setCmd_idleHold (s : State) (k : Option Cont) : (s.setCmd k).idleHold = s.idleHold := by
  unfold State.setCmd; split <;> rfl
@[simp] theorem State.setCmd_enteredSinceWait (s : State) (k : Option Cont) : (s.setCmd k).enteredSinceWait = s.enteredSinceWait := by
  unfold State.setCmd; split <;> rfl
@[simp] theorem State.setCmd_schedule (s : State) (k : Option Cont) : (s.setCmd k).schedule = s.schedule := by
  unfold State.setCmd; split <;> rfl
@[simp] theorem State.setCmd_trace (s : State) (k : Option Cont) : (s.setCmd k).trace = s.trace := by
  unfold State.setCmd; split <;> rfl
@[simp] theorem State.setCmd_slot (s : State) (k : Option Cont) (d : Chan) : (s.setCmd k).slot d = s.slot d := by
  unfold State.setCmd; split <;> rfl

@[simp] theorem State.setPhase_cfg (s : State) (p : Phase) : (s.setPhase p).cfg = s.cfg := by
  unfold State.setPhase; split <;> rfl
@[simp] theorem State.setPhase_idleCnt (s : State) (p : Phase) : (s.setPhase p).idleCnt = s.idleCnt := by
  unfold State.setPhase; split <;> rfl
@[simp] theorem State.setPhase_mainOp (s : State) (p : Phase) : (s.setPhase p).mainOp = s.mainOp := by
  unfold State.setPhase; split <;> rfl
@[simp] theorem State.setPhase_idleHold (s : State) (p : Phase) : (s.setPhase p).idleHold = s.idleHold := by
  unfold State.setPhase; split <;> rfl
@[simp] theorem State.setPhase_enteredSinceWait (s : State) (p : Phase) : (s.setPhase p).enteredSinceWait = s.enteredSinceWait := by
  unfold State.setPhase; split <;> rfl
@[simp] theorem State.setPhase_schedule (s : State) (p : Phase) : (s.setPhase p).schedule = s.schedule := by
  unfold State.setPhase; split <;> rfl
@[simp] theorem State.setPhase_trace (s : State) (p : Phase) : (s.setPhase p).trace = s.trace := by
  unfold State.setPhase; split <;> rfl
@[simp] theorem State.setPhase_slot (s : State) (p : Phase) (d : Chan) : (s.setPhase p).slot d = s.slot d := by
  unfold State.setPhase; split <;> rfl

@[simp] theorem State.latchFirstHalf_cfg (s : State) (b : Bool) : (s.latchFirstHalf b).cfg = s.cfg := by
  unfold State.latchFirstHalf; split <;> rfl
@[simp] theorem State.latchFirstHalf_idleCnt (s : State) (b : Bool) : (s.latchFirstHalf b).idleCnt = s.idleCnt := by
  unfold State.latchFirstHalf; split <;> rfl
@[simp] theorem State.latchFirstHalf_mainOp (s : State) (b : Bool) : (s.latchFirstHalf b).mainOp = s.mainOp := by
  unfold State.latchFirstHalf; split <;> rfl
@[simp] theorem State.latchFirstHalf_idleHold (s : State) (b : Bool) : (s.latchFirstHalf b).idleHold = s.idleHold := by
  unfold State.latchFirstHalf; split <;> rfl
@[simp] theorem State.latchFirstHalf_enteredSinceWait (s : State) (b : Bool) : (s.latchFirstHalf b).enteredSinceWait = s.enteredSinceWait := by
  unfold State.latchFirstHalf; split <;> rfl
@[simp] theorem State.latchFirstHalf_schedule (s : State) (b : Bool) : (s.latchFirstHalf b).schedule = s.schedule := by
  unfold State.latchFirstHalf; split <;> rfl
@[simp] theorem State.latchFirstHalf_trace (s : State) (b : Bool) : (s.latchFirstHalf b).trace = s.trace := by
  unfold State.latchFirstHalf; split <;> rfl
@[simp] theorem State.latchFirstHalf_slot (s : State) (b : Bool) (d : Chan) : (s.latchFirstHalf b).slot d = s.slot d := by
  unfold State.latchFirstHalf; split <;> rfl

@[simp] theorem setEn_cfg (s : State) (c : Chan) : (setEn c s).cfg = s.cfg := rfl
@[simp] theorem setEn_idleCnt (s : State) (c : Chan) : (setEn c s).idleCnt = s.idleCnt := rfl
@[simp] theorem setEn_active (s : State) (c : Chan) : (setEn c s).active = s.active := rfl
@[simp] theorem setEn_mainOp (s : State) (c : Chan) : (setEn c s).mainOp = s.mainOp := rfl
@[simp] theorem setEn_idleHold (s : State) (c : Chan) : (setEn c s).idleHold = s.idleHold := rfl
@[simp] theorem setEn_enteredSinceWait (s : State) (c : Chan) : (setEn c s).enteredSinceWait = s.enteredSinceWait := rfl
@[simp] theorem setEn_schedule (s : State) (c : Chan) : (setEn c s).schedule = s.schedule := rfl
@[simp] theorem setEn_trace (s : State) (c : Chan) : (setEn c s).trace = s.trace := rfl

@[simp] theorem clearEn_cfg (s : State) (c : Chan) : (clearEn c s).cfg = s.cfg := rfl
@[simp] theorem clearEn_idleCnt (s : State) (c : Chan) : (clearEn c s).idleCnt = s.idleCnt := rfl
@[simp] theorem clearEn_active (s : State) (c : Chan) : (clearEn c s).active = s.active := rfl
@[simp] theorem clearEn_mainOp (s : State) (c : Chan) : (clearEn c s).mainOp = s.mainOp := rfl
@[simp] theorem clearEn_idleHold (s : State) (c : Chan) : (clearEn c s).idleHold = s.idleHold := rfl
@[simp] theorem clearEn_enteredSinceWait (s : State) (c : Chan) : (clearEn c s).enteredSinceWait = s.enteredSinceWait := rfl
@[simp] theorem clearEn_schedule (s : State) (c : Chan) : (clearEn c s).schedule = s.schedule := rfl
@[simp] theorem clearEn_trace (s : State) (c : Chan) : (clearEn c s).trace = s.trace := rfl

@[simp] theorem clearHalf_cfg (s : State) (c : Chan) : (clearHalf c s).cfg = s.cfg := rfl
@[simp] theorem clearHalf_idleCnt (s : State) (c : Chan) : (clearHalf c s).idleCnt = s.idleCnt := rfl
@[simp] theorem clearHalf_active (s : State) (c : Chan) : (clearHalf c s).active = s.active := rfl
@[simp] theorem clearHalf_mainOp (s : State) (c : Chan) : (clearHalf c s).mainOp = s.mainOp := rfl
@[simp] theorem clearHalf_idleHold (s : State) (c : Chan) : (clearHalf c s).idleHold = s.idleHold := rfl
@[simp] theorem clearHalf_enteredSinceWait (s : State) (c : Chan) : (clearHalf c s).enteredSinceWait = s.enteredSinceWait := rfl
@[simp] theorem clearHalf_schedule (s : State) (c : Chan) : (clearHalf c s).schedule = s.schedule := rfl
@[simp] theorem clearHalf_trace (s : State) (c : Chan) : (clearHalf c s).trace = s.trace := rfl

@[simp] theorem toggleHalf_cfg (s : State) (c : Chan) : (toggleHalf c s).cfg = s.cfg := rfl
@[simp] theorem toggleHalf_idleCnt (s : State) (c : Chan) : (toggleHalf c s).idleCnt = s.idleCnt := rfl
@[simp] theorem toggleHalf_active (s : State) (c : Chan) : (toggleHalf c s).active = s.active := rfl
@[simp] theorem toggleHalf_mainOp (s : State) (c : Chan) : (toggleHalf c s).mainOp = s.mainOp := rfl
@[simp] theorem toggleHalf_idleHold (s : State) (c : Chan) : (toggleHalf c s).idleHold = s.idleHold := rfl
@[simp] theorem toggleHalf_enteredSinceWait (s : State) (c : Chan) : (toggleHalf c s).enteredSinceWait = s.enteredSinceWait := rfl
@[simp] theorem toggleHalf_schedule (s : State) (c : Chan) : (toggleHalf c s).schedule = s.schedule := rfl
@[simp] theorem toggleHalf_trace (s : State) (c : Chan) : (toggleHalf c s).trace = s.trace := rfl

@[simp] theorem setIf_cfg (s : State) (c : Chan) : (setIf c s).cfg = s.cfg := rfl
@[simp] theorem setIf_idleCnt (s : State) (c : Chan) : (setIf c s).idleCnt = s.idleCnt := rfl
@[simp] theorem setIf_active (s : State) (c : Chan) : (setIf c s).active = s.active := rfl
@[simp] theorem setIf_mainOp (s : State) (c : Chan) : (setIf c s).mainOp = s.mainOp := rfl
@[simp] theorem setIf_idleHold (s : State) (c : Chan) : (setIf c s).idleHold = s.idleHold := rfl
@[simp] theorem setIf_enteredSinceWait (s : State) (c : Chan) : (setIf c s).enteredSinceWait = s.enteredSinceWait := rfl
@[simp] theorem setIf_schedule (s : State) (c : Chan) : (setIf c s).schedule = s.schedule := rfl
@[simp] theorem setIf_trace (s : State) (c : Chan) : (setIf c s).trace = s.trace := rfl

@[simp] theorem clearIf_cfg (s : State) (c : Chan) : (clearIf c s).cfg = s.cfg := rfl
@[simp] theorem clearIf_idleCnt (s : State) (c : Chan) : (clearIf c s).idleCnt = s.idleCnt := rfl
@[simp] theorem clearIf_active (s : State) (c : Chan) : (clearIf c s).active = s.active := rfl
@[simp] theorem clearIf_mainOp (s : State) (c : Chan) : (clearIf c s).mainOp = s.mainOp := rfl
@[simp] theorem clearIf_idleHold (s : State) (c : Chan) : (clearIf c s).idleHold = s.idleHold := rfl
@[simp] theorem clearIf_enteredSinceWait (s : State) (c : Chan) : (clearIf c s).enteredSinceWait = s.enteredSinceWait := rfl
@[simp] theorem clearIf_schedule (s : State) (c : Chan) : (clearIf c s).schedule = s.schedule := rfl
@[simp] theorem clearIf_trace (s : State) (c : Chan) : (clearIf c s).trace = s.trace := rfl

@[simp] theorem setIe_cfg (s : State) (c : Chan) (b : Bool) : (setIe c b s).cfg = s.cfg := rfl
@[simp] theorem setIe_idleCnt (s : State) (c : Chan) (b : Bool) : (setIe c b s).idleCnt = s.idleCnt := rfl
@[simp] theorem setIe_active (s : State) (c : Chan) (b : Bool) : (setIe c b s).active = s.active := rfl
@[simp] theorem setIe_mainOp (s : State) (c : Chan) (b : Bool) : (setIe c b s).mainOp = s.mainOp := rfl
@[simp] theorem setIe_idleHold (s : State) (c : Chan) (b : Bool) : (setIe c b s).idleHold = s.idleHold := rfl
@[simp] theorem setIe_enteredSinceWait (s : State) (c : Chan) (b : Bool) : (setIe c b s).enteredSinceWait = s.enteredSinceWait := rfl
@[simp] theorem setIe_schedule (s : State) (c : Chan) (b : Bool) : (setIe c b s).schedule = s.schedule := rfl
@[simp] theorem setIe_trace (s : State) (c : Chan) (b : Bool) : (setIe c b s).trace = s.trace := rfl

@[simp] theorem setIpl_cfg (s : State) (c : Chan) (p : Word) : (setIpl c p s).cfg = s.cfg := rfl
@[simp] theorem setIpl_idleCnt (s : State) (c : Chan) (p : Word) : (setIpl c p s).idleCnt = s.idleCnt := rfl
@[simp] theorem setIpl_active (s : State) (c : Chan) (p : Word) : (setIpl c p s).active = s.active := rfl
@[simp] theorem setIpl_mainOp (s : State) (c : Chan) (p : Word) : (setIpl c p s).mainOp = s.mainOp := rfl
@[simp] theorem setIpl_idleHold (s : State) (c : Chan) (p : Word) : (setIpl c p s).idleHold = s.idleHold := rfl
@[simp] theorem setIpl_enteredSinceWait (s : State) (c : Chan) (p : Word) : (setIpl c p s).enteredSinceWait = s.enteredSinceWait := rfl
@[simp] theorem setIpl_schedule (s : State) (c : Chan) (p : Word) : (setIpl c p s).schedule = s.schedule := rfl
@[simp] theorem setIpl_trace (s : State) (c : Chan) (p : Word) : (setIpl c p s).trace = s.trace := rfl

@[simp] theorem raiseCounter_cfg (s : State) (t : Word) : (raiseCounter t s).cfg = s.cfg := by
  unfold raiseCounter; split <;> rfl
@[simp] theorem raiseCounter_active (s : State) (t : Word) : (raiseCounter t s).active = s.active := by
  unfold raiseCounter; split <;> rfl
@[simp] theorem raiseCounter_mainOp (s : State) (t : Word) : (raiseCounter t s).mainOp = s.mainOp := by
  unfold raiseCounter; split <;> rfl
@[simp] theorem raiseCounter_idleHold (s : State) (t : Word) : (raiseCounter t s).idleHold = s.idleHold := by
  unfold raiseCounter; split <;> rfl
@[simp] theorem raiseCounter_enteredSinceWait (s : State) (t : Word) : (raiseCounter t s).enteredSinceWait = s.enteredSinceWait := by
  unfold raiseCounter; split <;> rfl
@[simp] theorem raiseCounter_schedule (s : State) (t : Word) : (raiseCounter t s).schedule = s.schedule := by
  unfold raiseCounter; split <;> rfl
@[simp] theorem raiseCounter_trace (s : State) (t : Word) : (raiseCounter t s).trace = s.trace := by
  unfold raiseCounter; split <;> rfl
@[simp] theorem raiseCounter_slot (s : State) (t : Word) (d : Chan) : (raiseCounter t s).slot d = s.slot d := by
  unfold raiseCounter; split <;> rfl

@[simp] theorem lowerCounter_cfg (s : State) (t : Word) : (lowerCounter t s).cfg = s.cfg := by
  unfold lowerCounter; split <;> rfl
@[simp] theorem lowerCounter_active (s : State) (t : Word) : (lowerCounter t s).active = s.active := by
  unfold lowerCounter; split <;> rfl
@[simp] theorem lowerCounter_mainOp (s : State) (t : Word) : (lowerCounter t s).mainOp = s.mainOp := by
  unfold lowerCounter; split <;> rfl
@[simp] theorem lowerCounter_idleHold (s : State) (t : Word) : (lowerCounter t s).idleHold = s.idleHold := by
  unfold lowerCounter; split <;> rfl
@[simp] theorem lowerCounter_enteredSinceWait (s : State) (t : Word) : (lowerCounter t s).enteredSinceWait = s.enteredSinceWait := by
  unfold lowerCounter; split <;> rfl
@[simp] theorem lowerCounter_schedule (s : State) (t : Word) : (lowerCounter t s).schedule = s.schedule := by
  unfold lowerCounter; split <;> rfl
@[simp] theorem lowerCounter_trace (s : State) (t : Word) : (lowerCounter t s).trace = s.trace := by
  unfold lowerCounter; split <;> rfl
@[simp] theorem lowerCounter_slot (s : State) (t : Word) (d : Chan) : (lowerCounter t s).slot d = s.slot d := by
  unfold lowerCounter; split <;> rfl

@[simp] theorem beginWait_cfg (s : State) : (beginWait s).cfg = s.cfg := rfl
@[simp] theorem beginWait_idleCnt (s : State) : (beginWait s).idleCnt = s.idleCnt := rfl
@[simp] theorem beginWait_active (s : State) : (beginWait s).active = s.active := rfl
@[simp] theorem beginWait_mainOp (s : State) : (beginWait s).mainOp = s.mainOp := rfl
@[simp] theorem beginWait_schedule (s : State) : (beginWait s).schedule = s.schedule := rfl
@[simp] theorem beginWait_slot (s : State) (d : Chan) : (beginWait s).slot d = s.slot d := rfl
@[simp] theorem beginWait_idleHold (s : State) : (beginWait s).idleHold = true := rfl
@[simp] theorem beginWait_enteredSinceWait (s : State) : (beginWait s).enteredSinceWait = false := rfl
@[simp] theorem beginWait_trace (s : State) : (beginWait s).trace = .idleWait :: s.trace := rfl

@[simp] theorem enterHandler_cfg (s : State) (c : Chan) : (enterHandler c s).cfg = s.cfg := rfl
@[simp] theorem enterHandler_idleCnt (s : State) (c : Chan) : (enterHandler c s).idleCnt = s.idleCnt := rfl
@[simp] theorem enterHandler_mainOp (s : State) (c : Chan) : (enterHandler c s).mainOp = s.mainOp := rfl
@[simp] theorem enterHandler_idleHold (s : State) (c : Chan) : (enterHandler c s).idleHold = s.idleHold := rfl
@[simp] theorem enterHandler_schedule (s : State) (c : Chan) : (enterHandler c s).schedule = s.schedule := rfl
@[simp] theorem enterHandler_trace (s : State) (c : Chan) : (enterHandler c s).trace = s.trace := rfl
@[simp] theorem enterHandler_slot (s : State) (c : Chan) (d : Chan) : (enterHandler c s).slot d = s.slot d := rfl
@[simp] theorem enterHandler_active (s : State) (c : Chan) : (enterHandler c s).active = ⟨c, (s.slot c).ipl, .d1, none, none⟩ :: s.active := rfl
@[simp] theorem enterHandler_enteredSinceWait (s : State) (c : Chan) : (enterHandler c s).enteredSinceWait = true := rfl

@[simp] theorem leaveHandler_cfg (s : State) : (leaveHandler s).cfg = s.cfg := rfl
@[simp] theorem leaveHandler_idleCnt (s : State) : (leaveHandler s).idleCnt = s.idleCnt := rfl
@[simp] theorem leaveHandler_mainOp (s : State) : (leaveHandler s).mainOp = s.mainOp := rfl
@[simp] theorem leaveHandler_idleHold (s : State) : (leaveHandler s).idleHold = s.idleHold := rfl
@[simp] theorem leaveHandler_enteredSinceWait (s : State) : (leaveHandler s).enteredSinceWait = s.enteredSinceWait := rfl
@[simp] theorem leaveHandler_schedule (s : State) : (leaveHandler s).schedule = s.schedule := rfl
@[simp] theorem leaveHandler_trace (s : State) : (leaveHandler s).trace = s.trace := rfl
@[simp] theorem leaveHandler_slot (s : State) (d : Chan) : (leaveHandler s).slot d = s.slot d := rfl
@[simp] theorem leaveHandler_active (s : State) : (leaveHandler s).active = s.active.tail := rfl

@[simp] theorem wakeMainline_cfg (s : State) : (wakeMainline s).cfg = s.cfg := by
  unfold wakeMainline; split <;> rfl
@[simp] theorem wakeMainline_idleCnt (s : State) : (wakeMainline s).idleCnt = s.idleCnt := by
  unfold wakeMainline; split <;> rfl
@[simp] theorem wakeMainline_active (s : State) : (wakeMainline s).active = s.active := by
  unfold wakeMainline; split <;> rfl
@[simp] theorem wakeMainline_mainOp (s : State) : (wakeMainline s).mainOp = s.mainOp := by
  unfold wakeMainline; split <;> rfl
@[simp] theorem wakeMainline_enteredSinceWait (s : State) : (wakeMainline s).enteredSinceWait = s.enteredSinceWait := by
  unfold wakeMainline; split <;> rfl
@[simp] theorem wakeMainline_schedule (s : State) : (wakeMainline s).schedule = s.schedule := by
  unfold wakeMainline; split <;> rfl
@[simp] theorem wakeMainline_trace (s : State) : (wakeMainline s).trace = s.trace := by
  unfold wakeMainline; split <;> rfl
@[simp] theorem wakeMainline_slot (s : State) (d : Chan) : (wakeMainline s).slot d = s.slot d := by
  unfold wakeMainline; split <;> rfl

@[simp] theorem applyEnumerated_cfg (s : State) (c : Chan) (o : ConfigOperands) : (applyEnumerated c o s).cfg = s.cfg := rfl
@[simp] theorem applyEnumerated_idleCnt (s : State) (c : Chan) (o : ConfigOperands) : (applyEnumerated c o s).idleCnt = s.idleCnt := rfl
@[simp] theorem applyEnumerated_active (s : State) (c : Chan) (o : ConfigOperands) : (applyEnumerated c o s).active = s.active := rfl
@[simp] theorem applyEnumerated_mainOp (s : State) (c : Chan) (o : ConfigOperands) : (applyEnumerated c o s).mainOp = s.mainOp := rfl
@[simp] theorem applyEnumerated_idleHold (s : State) (c : Chan) (o : ConfigOperands) : (applyEnumerated c o s).idleHold = s.idleHold := rfl
@[simp] theorem applyEnumerated_enteredSinceWait (s : State) (c : Chan) (o : ConfigOperands) : (applyEnumerated c o s).enteredSinceWait = s.enteredSinceWait := rfl
@[simp] theorem applyEnumerated_schedule (s : State) (c : Chan) (o : ConfigOperands) : (applyEnumerated c o s).schedule = s.schedule := rfl
@[simp] theorem applyEnumerated_trace (s : State) (c : Chan) (o : ConfigOperands) : (applyEnumerated c o s).trace = s.trace := rfl

@[simp] theorem applyTail_cfg (s : State) (c : Chan) (o : ConfigOperands) : (applyTail c o s).cfg = s.cfg := rfl
@[simp] theorem applyTail_idleCnt (s : State) (c : Chan) (o : ConfigOperands) : (applyTail c o s).idleCnt = s.idleCnt := rfl
@[simp] theorem applyTail_active (s : State) (c : Chan) (o : ConfigOperands) : (applyTail c o s).active = s.active := rfl
@[simp] theorem applyTail_mainOp (s : State) (c : Chan) (o : ConfigOperands) : (applyTail c o s).mainOp = s.mainOp := rfl
@[simp] theorem applyTail_idleHold (s : State) (c : Chan) (o : ConfigOperands) : (applyTail c o s).idleHold = s.idleHold := rfl
@[simp] theorem applyTail_enteredSinceWait (s : State) (c : Chan) (o : ConfigOperands) : (applyTail c o s).enteredSinceWait = s.enteredSinceWait := rfl
@[simp] theorem applyTail_schedule (s : State) (c : Chan) (o : ConfigOperands) : (applyTail c o s).schedule = s.schedule := rfl
@[simp] theorem applyTail_trace (s : State) (c : Chan) (o : ConfigOperands) : (applyTail c o s).trace = s.trace := rfl

end Sys2Proof.Machine
end

