-- ==== Sys2Proof/Laws/Ops.lean ====
section
/-! SUPPORT. What each shared operation can do: contexts, slots, counter, operands, translation, arbitration. -/

namespace Sys2Proof.Machine

/-! ### Outcomes -/

@[simp] theorem onNext_next (t : State) (k : State → Result) : onNext (.next t) k = k t := rfl
@[simp] theorem onNext_fault (f : Fault) (k : State → Result) : onNext (.fault f) k = .fault f := rfl
@[simp] theorem onNext_refused (f : Refusal) (k : State → Result) : onNext (.refused f) k = .refused f := rfl

theorem issuing_eq_next {s : State} {r : Result} {t : State} :
    issuing s r = .next t ↔ s.canIssue = true ∧ r = .next t := by
  unfold issuing
  cases s.canIssue <;> simp

theorem issuing_of_canIssue {s : State} (h : s.canIssue = true) (r : Result) : issuing s r = r := by
  simp [issuing, h]

theorem canIssue_iff_mayIssue (s : State) : s.canIssue = true ↔ MayIssue s := by
  unfold State.canIssue MayIssue
  cases h : s.active with
  | nil => simp
  | cons h rest => simp [and_assoc]

/-! ### Contexts -/

theorem State.setCmd_of_mainline {s : State} (h : s.active = []) (k : Option Cont) :
    s.setCmd k = { s with mainOp := k } := by
  simp [State.setCmd, h]

theorem State.setCmd_of_handler {s : State} {h : Handler} {rest : List Handler} (ha : s.active = h :: rest)
    (k : Option Cont) : s.setCmd k = { s with active := { h with cmd := k } :: rest } := by
  simp [State.setCmd, ha]

theorem State.setPhase_of_handler {s : State} {h : Handler} {rest : List Handler} (ha : s.active = h :: rest) (p : Phase) :
    s.setPhase p = { s with active := { h with phase := p } :: rest } := by
  simp [State.setPhase, ha]

theorem State.latchFirstHalf_of_handler {s : State} {h : Handler} {rest : List Handler} (ha : s.active = h :: rest)
    (f : Bool) : s.latchFirstHalf f = { s with active := { h with firstHalf := some f } :: rest } := by
  simp [State.latchFirstHalf, ha]

@[simp] theorem State.setCmd_setCmd (s : State) (k l : Option Cont) : (s.setCmd k).setCmd l = s.setCmd l := by
  cases h : s.active <;> simp [State.setCmd, h]

@[simp] theorem State.setCmd_isNil (s : State) (k : Option Cont) : (s.setCmd k).active = [] ↔ s.active = [] := by
  cases h : s.active <;> simp [State.setCmd, h]

theorem State.setCmd_modSlot (s : State) (k : Option Cont) (c : Chan) (f : Slot → Slot) :
    (s.modSlot c f).setCmd k = (s.setCmd k).modSlot c f := by
  cases h : s.active <;> simp [State.setCmd, State.modSlot, State.slot, h]

theorem State.setCmd_emit (s : State) (k : Option Cont) (o : Output) : (s.emit o).setCmd k = (s.setCmd k).emit o := by
  cases h : s.active <;> simp [State.setCmd, State.emit, h]

theorem State.setCmd_respond (s : State) (k : Option Cont) (v : Option Word) :
    (s.respond v).setCmd k = (s.setCmd k).respond v := s.setCmd_emit k _

theorem State.setCmd_raiseError (s : State) (k : Option Cont) (kind : ErrorKind) (op : BitVec 4) (v : Word) :
    (s.raiseError kind op v).setCmd k = (s.setCmd k).raiseError kind op v := by
  simp [State.raiseError, State.setCmd_emit]

theorem State.setCmd_raiseCounter (s : State) (k : Option Cont) (t : Word) :
    (raiseCounter t s).setCmd k = raiseCounter t (s.setCmd k) := by
  unfold raiseCounter
  split <;> cases h : s.active <;> simp [State.setCmd, h]

theorem State.setCmd_lowerCounter (s : State) (k : Option Cont) (t : Word) :
    (lowerCounter t s).setCmd k = lowerCounter t (s.setCmd k) := by
  unfold lowerCounter
  split <;> cases h : s.active <;> simp [State.setCmd, h]

/-- Where a command may be issued, the running context's command is none already. -/
theorem State.setCmd_none_of_canIssue {s : State} (h : s.canIssue = true) : s.setCmd none = s := by
  cases ha : s.active with
  | nil =>
    simp [State.canIssue, ha] at h
    rw [State.setCmd_of_mainline ha]
    ext1 <;> simp [h.2]
  | cons hd rest =>
    simp [State.canIssue, ha] at h
    rw [State.setCmd_of_handler ha]
    have : ({ hd with cmd := none } : Handler) = hd := by
      cases hd
      simp_all
    ext1 <;> simp [ha, this]

/-- A command placed where one may be issued is the running one. -/
theorem State.runningCmd_setCmd_of_canIssue {s : State} (h : s.canIssue = true) (k : Option Cont) :
    (s.setCmd k).runningCmd = k := by
  cases ha : s.active with
  | nil =>
    simp [State.canIssue, ha] at h
    simp [State.runningCmd, State.setCmd, ha, h.1]
  | cons hd rest => simp [State.runningCmd, State.setCmd, ha]

/-- The running command depends on the contexts and the hold alone. -/
theorem State.runningCmd_congr {s t : State} (ha : t.active = s.active) (hm : t.mainOp = s.mainOp)
    (hh : t.idleHold = s.idleHold) : t.runningCmd = s.runningCmd := by
  simp [State.runningCmd, ha, hm, hh]

/-! ### Operands -/

theorem chan?_eq_some {w : Word} {c : Chan} : chan? w = some c ↔ w.toNat = c.val := by
  unfold chan?
  split
  · simp only [Option.some.injEq]
    exact ⟨fun h => by rw [← h], fun h => Fin.ext h⟩
  · simp only [false_iff, reduceCtorEq]
    have := c.isLt
    omega

theorem chan?_eq_none {w : Word} : chan? w = none ↔ 7 < w.toNat := by
  unfold chan?
  split <;> simp <;> omega

theorem dataSizeCode_of {w : Word} (h : w.toNat ≤ 1) : dataSizeCode (dataSizeOf w) = w.toNat := by
  unfold dataSizeOf
  split
  · simp_all [dataSizeCode]
  · rename_i h0
    have : w.toNat ≠ 0 := fun e => h0 (BitVec.eq_of_toNat_eq e)
    simp only [dataSizeCode]
    omega

theorem directionCode_of {w : Word} (h : w.toNat ≤ 1) : directionCode (directionOf w) = w.toNat := by
  unfold directionOf
  split
  · simp_all [directionCode]
  · rename_i h0
    have : w.toNat ≠ 0 := fun e => h0 (BitVec.eq_of_toNat_eq e)
    simp only [directionCode]
    omega

theorem timingCode_of {w : Word} (h : w.toNat ≤ 1) : timingCode (timingOf w) = w.toNat := by
  unfold timingOf
  split
  · simp_all [timingCode]
  · rename_i h0
    have : w.toNat ≠ 0 := fun e => h0 (BitVec.eq_of_toNat_eq e)
    simp only [timingCode]
    omega

theorem nullWriteCode_of {w : Word} (h : w.toNat ≤ 1) : nullWriteCode (nullWriteOf w) = w.toNat := by
  unfold nullWriteOf nullWriteCode
  by_cases h0 : w = 0
  · simp [h0]
  · have : w.toNat ≠ 0 := fun e => h0 (BitVec.eq_of_toNat_eq e)
    simp only [bne_iff_ne, ne_eq, h0, not_false_eq_true, if_true]
    omega

theorem addrModeCode_of {w : Word} (h : w.toNat ≤ 2) : addrModeCode (addrModeOf w) = w.toNat := by
  unfold addrModeOf
  by_cases h0 : w = 0
  · simp [h0, addrModeCode]
  by_cases h1 : w = 1
  · simp [h1, addrModeCode]
  have n0 : w.toNat ≠ 0 := fun e => h0 (BitVec.eq_of_toNat_eq e)
  have n1 : w.toNat ≠ 1 := fun e => h1 (BitVec.eq_of_toNat_eq e)
  simp only [h0, h1, if_false, addrModeCode]
  omega

theorem opModeCode_of {w : Word} (h : w.toNat ≤ 3) : opModeCode (opModeOf w) = w.toNat := by
  unfold opModeOf
  by_cases h0 : w = 0
  · simp [h0, opModeCode]
  by_cases h1 : w = 1
  · simp [h1, opModeCode]
  by_cases h2 : w = 2
  · simp [h2, opModeCode]
  have n0 : w.toNat ≠ 0 := fun e => h0 (BitVec.eq_of_toNat_eq e)
  have n1 : w.toNat ≠ 1 := fun e => h1 (BitVec.eq_of_toNat_eq e)
  have n2 : w.toNat ≠ 2 := fun e => h2 (BitVec.eq_of_toNat_eq e)
  simp only [h0, h1, h2, if_false, opModeCode]
  omega

theorem firstIllegal_eq_none {k : Config} {o : ConfigOperands} : firstIllegal k o = none ↔ EnumeratedLegal k o := by
  unfold firstIllegal
  constructor
  · intro h
    split_ifs at h
    constructor <;> first | omega | simp_all
  · rintro ⟨h1, h2, h3, h4, h5, h6, h7⟩
    have hc : k.reqLegal.contains o.requestSource = true := by simpa using h1
    rw [hc, if_neg (by simp), if_neg (by omega), if_neg (by omega), if_neg (by omega), if_neg (by omega),
      if_neg (by omega), if_neg (by omega)]

/-! ### Translation -/

theorem translate_eq_some {k : Config} {a : Word} {n offset : Nat} :
    translate k a n = some offset ↔ BufferAt k a n offset := by
  simp only [translate, BufferAt, windowSize]
  by_cases h0 : a = k.unusedSentinel
  · simp [h0, eq_comm]
  rw [if_neg h0]
  by_cases h1 : a.toNat < k.windowBase.toNat
  · simp [h1, h0]
  rw [if_neg h1]
  by_cases h2 : a.toNat - k.windowBase.toNat + n > 8192
  · rw [if_pos h2]
    simp only [reduceCtorEq, h0, false_and, false_or, ne_eq, not_false_eq_true, true_and, false_iff]
    omega
  · rw [if_neg h2]
    simp only [Option.some.injEq, h0, false_and, false_or, ne_eq, not_false_eq_true, true_and]
    omega

theorem translate_eq_none {k : Config} {a : Word} {n : Nat} : translate k a n = none ↔ BufferOutside k a n := by
  simp only [translate, BufferOutside, windowSize]
  by_cases h0 : a = k.unusedSentinel
  · simp [h0]
  rw [if_neg h0]
  by_cases h1 : a.toNat < k.windowBase.toNat
  · simp [h1, h0]
  rw [if_neg h1]
  by_cases h2 : a.toNat - k.windowBase.toNat + n > 8192
  · rw [if_pos h2]
    simp only [h0, ne_eq, not_false_eq_true, true_and, true_iff]
    omega
  · rw [if_neg h2]
    simp only [reduceCtorEq, h0, ne_eq, not_false_eq_true, true_and, false_iff]
    omega

/-- An offset lies in [0, 8192] (R131). -/
theorem BufferAt_le {k : Config} {a : Word} {n offset : Nat} (h : BufferAt k a n offset) : offset ≤ windowSize := by
  rcases h with ⟨_, h⟩ | ⟨_, _, _, h⟩ <;> omega

/-- CONFIGURE passes the translator the size R115 gives. -/
theorem bufferBytes_eq_legalBytes (k : Config) (o : ConfigOperands) : bufferBytes k o = legalBytes k o := by
  unfold bufferBytes legalBytes dataSizeOf
  split <;> rfl

theorem bufferOffset_eq_some {k : Config} {o : ConfigOperands} {a : Word} {x : Offset} :
    bufferOffset k o a = some x ↔ BufferAt k a (legalBytes k o) x.toNat := by
  unfold bufferOffset
  rw [bufferBytes_eq_legalBytes, Option.map_eq_some_iff]
  constructor
  · rintro ⟨n, hn, rfl⟩
    have hb := translate_eq_some.1 hn
    have := BufferAt_le hb
    rwa [BitVec.toNat_ofNat, Nat.mod_eq_of_lt (by simp only [windowSize] at this; omega)]
  · intro h
    exact ⟨x.toNat, translate_eq_some.2 h, by simp⟩

theorem bufferOffset_eq_none {k : Config} {o : ConfigOperands} {a : Word} :
    bufferOffset k o a = none ↔ BufferOutside k a (legalBytes k o) := by
  unfold bufferOffset
  rw [bufferBytes_eq_legalBytes, Option.map_eq_none_iff, translate_eq_none]

/-! ### The counter -/

/-- R141, R146: what the write of INHIBIT stores when the value it read is in range. -/
theorem raiseCounter_inRange {t : Word} (s : State) (h : 1000 ≤ t.toNat ∧ t.toNat ≤ 2000) (hs : s.idleCnt = t) :
    (raiseCounter t s).idleCnt.toNat = min (t.toNat + 1) 2000 := by
  simp only [raiseCounter, idleBase, idleMax] at *
  split
  · rename_i h'
    simp only [BitVec.toNat_add]
    have : (1 : Word).toNat = 1 := rfl
    simp only [this]
    omega
  · rw [hs]
    omega

/-- R142, R146: what the write of RELEASE stores when the value it read is in range. -/
theorem lowerCounter_inRange {t : Word} (s : State) (h : 1000 ≤ t.toNat ∧ t.toNat ≤ 2000) (hs : s.idleCnt = t) :
    (lowerCounter t s).idleCnt.toNat = max (t.toNat - 1) 1000 := by
  simp only [lowerCounter, idleBase, idleMax] at *
  split
  · rename_i h'
    have : (1 : Word).toNat = 1 := rfl
    simp only [BitVec.toNat_sub, this]
    omega
  · rw [hs]
    omega

/-- Where the write of INHIBIT changes the counter, its value is the one read plus 1. -/
theorem raiseCounter_changes {v : Word} {s : State} (h : (raiseCounter v s).idleCnt ≠ s.idleCnt) :
    1000 ≤ v.toNat ∧ v.toNat ≤ 1999 ∧ (raiseCounter v s).idleCnt.toNat = v.toNat + 1 := by
  unfold raiseCounter idleBase idleMax at h ⊢
  split at h
  · rename_i hv
    rw [if_pos hv]
    refine ⟨hv.1, by omega, ?_⟩
    show (v + 1).toNat = v.toNat + 1
    rw [BitVec.toNat_add]
    simp
    omega
  · exact absurd rfl h

/-- Where the write of RELEASE changes the counter, its value is the one read less 1. -/
theorem lowerCounter_changes {v : Word} {s : State} (h : (lowerCounter v s).idleCnt ≠ s.idleCnt) :
    1001 ≤ v.toNat ∧ v.toNat ≤ 2000 ∧ (lowerCounter v s).idleCnt.toNat + 1 = v.toNat := by
  unfold lowerCounter idleBase idleMax at h ⊢
  split at h
  · rename_i hv
    rw [if_pos hv]
    refine ⟨hv.2, hv.1, ?_⟩
    show (v - 1).toNat + 1 = v.toNat
    rw [BitVec.toNat_sub]
    simp
    omega
  · exact absurd rfl h

theorem raiseCounter_outside {t : Word} (s : State) (h : t.toNat < 1000 ∨ 2000 < t.toNat) : raiseCounter t s = s := by
  simp only [raiseCounter, idleBase, idleMax] at *
  rw [if_neg (by omega)]

theorem lowerCounter_outside {t : Word} (s : State) (h : t.toNat < 1000 ∨ 2000 < t.toNat) : lowerCounter t s = s := by
  simp only [lowerCounter, idleBase, idleMax] at *
  rw [if_neg (by omega)]

/-- R41: whatever value was read, the write of INHIBIT keeps the counter in range. -/
theorem raiseCounter_keeps_range (t : Word) (s : State) (h : idleBase ≤ s.idleCnt.toNat ∧ s.idleCnt.toNat ≤ idleMax) :
    idleBase ≤ (raiseCounter t s).idleCnt.toNat ∧ (raiseCounter t s).idleCnt.toNat ≤ idleMax := by
  simp only [raiseCounter, idleBase, idleMax] at *
  split
  · have : (1 : Word).toNat = 1 := rfl
    simp only [BitVec.toNat_add, this]
    omega
  · exact h

/-- R41: whatever value was read, the write of RELEASE keeps the counter in range. -/
theorem lowerCounter_keeps_range (t : Word) (s : State) (h : idleBase ≤ s.idleCnt.toNat ∧ s.idleCnt.toNat ≤ idleMax) :
    idleBase ≤ (lowerCounter t s).idleCnt.toNat ∧ (lowerCounter t s).idleCnt.toNat ≤ idleMax := by
  simp only [lowerCounter, idleBase, idleMax] at *
  split
  · have : (1 : Word).toNat = 1 := rfl
    simp only [BitVec.toNat_sub, this]
    omega
  · exact h

/-! ### Arbitration -/

theorem takeable_iff (s : State) (c : Chan) : s.takeable c = true ↔ Takeable s c := by
  unfold State.takeable Takeable State.isActive State.eligible Eligible
  cases s.cfg.nestPolicy <;> simp [and_assoc]

theorem enterable_iff (s : State) (c : Chan) :
    s.enterable c = true ↔ Takeable s c ∧ ∀ d, Takeable s d → (s.slot d).ipl.toNat ≤ (s.slot c).ipl.toNat := by
  have key : ∀ d, (!s.takeable d || decide ((s.slot d).ipl.toNat ≤ (s.slot c).ipl.toNat)) = true ↔
      (Takeable s d → (s.slot d).ipl.toNat ≤ (s.slot c).ipl.toNat) := by
    intro d
    rw [← takeable_iff]
    cases s.takeable d <;> simp
  unfold State.enterable
  rw [Bool.and_eq_true, takeable_iff, List.all_eq_true]
  simp only [key, List.mem_finRange, forall_const]

end Sys2Proof.Machine
end

