-- ==== Sys2Proof/Laws/Micro.lean ====
section
/-! SUPPORT. Commands at micro-step grain: a command placed on a free context, its micro-steps one by one, and the shape
of every micro-step's answer. -/

namespace Sys2Proof.Machine

/-! ### Where a command may be issued does not depend on slots, ports or the counter -/

@[simp] theorem canIssue_modSlot (s : State) (c : Chan) (f : Slot → Slot) : (s.modSlot c f).canIssue = s.canIssue := rfl
@[simp] theorem canIssue_emit (s : State) (o : Output) : (s.emit o).canIssue = s.canIssue := rfl
@[simp] theorem canIssue_respond (s : State) (v : Option Word) : (s.respond v).canIssue = s.canIssue := rfl
@[simp] theorem canIssue_raiseError (s : State) (e : ErrorKind) (op : BitVec 4) (v : Word) :
    (s.raiseError e op v).canIssue = s.canIssue := rfl
@[simp] theorem canIssue_raiseCounter (s : State) (t : Word) : (raiseCounter t s).canIssue = s.canIssue := by
  simp [State.canIssue]
@[simp] theorem canIssue_lowerCounter (s : State) (t : Word) : (lowerCounter t s).canIssue = s.canIssue := by
  simp [State.canIssue]

/-! ### The micro-steps of a command placed on a free context -/

/-- A slot write commutes with the placing of a continuation. -/
theorem State.modSlot_setCmd (b : State) (k : Option Cont) (c : Chan) (f : Slot → Slot) :
    (b.setCmd k).modSlot c f = (b.modSlot c f).setCmd k := (State.setCmd_modSlot _ _ _ _).symm

theorem goto_setCmd (k l : Cont) (b : State) : goto l (b.setCmd (some k)) = .next (b.setCmd (some l)) := by
  simp [goto]

theorem goto_setCmd_modSlot (k l : Cont) (b : State) (c : Chan) (f : Slot → Slot) :
    goto l ((b.setCmd (some k)).modSlot c f) = .next ((b.modSlot c f).setCmd (some l)) := by
  simp [goto, State.setCmd_modSlot]

theorem finish_setCmd (k : Cont) (v : Option Word) (b : State) (hb : b.canIssue = true) :
    finish v (b.setCmd (some k)) = .next (b.respond v) := by
  simp only [finish]
  rw [State.setCmd_respond, State.setCmd_setCmd, State.setCmd_none_of_canIssue hb]

theorem abort_setCmd (k : Cont) (e : ErrorKind) (op : BitVec 4) (v : Word) (b : State) (hb : b.canIssue = true) :
    abort e op v (b.setCmd (some k)) = .next (b.raiseError e op v) := by
  simp only [abort]
  rw [State.setCmd_raiseError, State.setCmd_setCmd, State.setCmd_none_of_canIssue hb]

/-- One micro-step of a running command. -/
theorem runCommand_setCmd {n : Nat} {b : State} {k : Cont} (hb : b.canIssue = true) :
    runCommand (n + 1) (b.setCmd (some k)) = onNext (microStep k (b.setCmd (some k))) (runCommand n) := by
  simp only [runCommand, State.runningCmd_setCmd_of_canIssue hb]

/-- With no command running there is nothing to run. -/
theorem runCommand_of_none {n : Nat} {s : State} (h : s.runningCmd = none) : runCommand n s = .next s := by
  cases n <;> simp [runCommand, h]

theorem runCommand_of_canIssue {n : Nat} {b : State} (hb : b.canIssue = true) : runCommand n b = .next b := by
  apply runCommand_of_none
  have := State.runningCmd_setCmd_of_canIssue hb none
  rwa [State.setCmd_none_of_canIssue hb] at this

/-! ### The running context -/

/-- The running context's command, for a handler. -/
theorem State.runningCmd_of_handler {s : State} {h : Handler} {rest : List Handler} (ha : s.active = h :: rest) :
    s.runningCmd = h.cmd := by
  simp [State.runningCmd, ha]

/-- G3 with a command in progress is that command's micro-step. -/
theorem contextStep_of_cmd {s : State} {k : Cont} (h : s.runningCmd = some k) : contextStep s = microStep k s := by
  unfold contextStep
  cases ha : s.active with
  | nil => simp [h]
  | cons hd rest =>
    rw [State.runningCmd_of_handler ha] at h
    simp [h]

/-- G3 in a handler with no command in progress is the next step of its DISPATCH sequence. -/
theorem contextStep_of_dispatch {s : State} {h : Handler} {rest : List Handler} (ha : s.active = h :: rest)
    (hc : h.cmd = none) : contextStep s = dispatchStep h.chan h.phase s := by
  simp [contextStep, ha, hc]

/-- What a context step is: a command's micro-step, or a step of DISPATCH. -/
theorem contextStep_cases {s t : State} (h : contextStep s = .next t) :
    (∃ k, s.runningCmd = some k ∧ microStep k s = .next t) ∨
      ∃ hd rest, s.active = hd :: rest ∧ hd.cmd = none ∧ dispatchStep hd.chan hd.phase s = .next t := by
  cases hk : s.runningCmd with
  | some k =>
    rw [contextStep_of_cmd hk] at h
    exact .inl ⟨k, rfl, h⟩
  | none =>
    unfold contextStep at h
    cases ha : s.active with
    | nil => simp [ha, hk] at h
    | cons hd rest =>
      rw [State.runningCmd_of_handler ha] at hk
      simp only [ha, hk] at h
      exact .inr ⟨hd, rest, rfl, hk, h⟩

/-- What a step of DISPATCH is, by its phase. -/
theorem dispatchStep_cases {c : Chan} {p : Phase} {s t : State} (h : dispatchStep c p s = .next t) :
    (p = .d1 ∧ t = (clearIf c s).setPhase .d2) ∨
    (p = .d2 ∧ (s.slot c).cb ≠ cbNone ∧
      t = ((s.emit (.cbCall (s.slot c).cb c (!(s.slot c).half))).latchFirstHalf (!(s.slot c).half)).setPhase .callback) ∨
    (p = .d3 ∧ t = (toggleHalf c s).setPhase .d4) ∨ (p = .d4 ∧ t = leaveHandler s) := by
  cases p
  · simp only [dispatchStep, microD1, Host.Outcome.next.injEq] at h
    exact .inl ⟨rfl, h.symm⟩
  · simp only [dispatchStep, microD2] at h
    split at h <;> simp only [reduceCtorEq, Host.Outcome.next.injEq] at h
    exact .inr (.inl ⟨rfl, by assumption, h.symm⟩)
  · simp [dispatchStep] at h
  · simp only [dispatchStep, microD3, Host.Outcome.next.injEq] at h
    exact .inr (.inr (.inl ⟨rfl, h.symm⟩))
  · simp only [dispatchStep, microD4, Host.Outcome.next.injEq] at h
    exact .inr (.inr (.inr ⟨rfl, h.symm⟩))

end Sys2Proof.Machine
end

