-- ==== Sys2Proof/Laws/Exec.lean ====
section
/-! SUPPORT. One spec lemma per meaning: what a whole command answers, case by case. -/

namespace Sys2Proof.Machine

/-! ### The meanings where a command may be issued and its channel is valid -/

theorem execInhibit_next {s : State} (h : s.canIssue = true) :
    execInhibit s = .next ((raiseCounter s.idleCnt s).respond none) := issuing_of_canIssue h _

theorem execRelease_next {s : State} (h : s.canIssue = true) :
    execRelease s = .next ((lowerCounter s.idleCnt s).respond none) := issuing_of_canIssue h _

theorem execMayIdle_next {s : State} (h : s.canIssue = true) :
    execMayIdle s = .next (s.respond (some (mayIdleValue s.idleCnt))) := issuing_of_canIssue h _

theorem execTranslate_next {s : State} (h : s.canIssue = true) {a n : Word} {offset : Nat}
    (hb : BufferAt s.cfg a n.toNat offset) :
    execTranslate a n s = .next (s.respond (some (BitVec.ofNat 16 offset))) := by
  simp [execTranslate, issuing_of_canIssue h, translate_eq_some.2 hb]

theorem execTranslate_outside {s : State} (h : s.canIssue = true) {a n : Word} (hb : BufferOutside s.cfg a n.toNat) :
    execTranslate a n s = .next (s.raiseError .invalidAddress opTranslate a) := by
  simp [execTranslate, issuing_of_canIssue h, translate_eq_none.2 hb]

theorem execIdle_inhibited {s : State} (h : s.canIssue = true) (ha : s.active = []) (hi : s.idleCnt.toNat ≠ 1000) :
    execIdle s = .next (s.respond none) := by
  simp [execIdle, issuing_of_canIssue h, State.inHandler, ha, hi]

theorem execIdle_waits {s : State} (h : s.canIssue = true) (ha : s.active = []) (hi : s.idleCnt.toNat = 1000) :
    execIdle s = .next ((beginWait s).setCmd (some .w3)) := by
  simp [execIdle, issuing_of_canIssue h, State.inHandler, ha, hi]

theorem execIdle_inCallback {s : State} (h : s.canIssue = true) (ha : s.active ≠ []) :
    execIdle s = .refused .idleInCallback := by
  simp [execIdle, issuing_of_canIssue h, State.inHandler, ha]

theorem execEnable_next {s : State} (h : s.canIssue = true) {w : Word} {c : Chan} (hw : w.toNat = c.val) :
    execEnable w s =
      .next ((if oneShot (s.slot c).mode then raiseCounter s.idleCnt (setEn c s) else setEn c s).respond none) := by
  simp [execEnable, issuing_of_canIssue h, chan?_eq_some.2 hw, setEn]

theorem execDisable_next {s : State} (h : s.canIssue = true) {w : Word} {c : Chan} (hw : w.toNat = c.val) :
    execDisable w s =
      .next ((if oneShot (s.slot c).mode then lowerCounter s.idleCnt (clearHalf c (clearEn c s))
        else clearHalf c (clearEn c s)).respond none) := by
  simp [execDisable, issuing_of_canIssue h, chan?_eq_some.2 hw, clearHalf, clearEn]

theorem execStart_next {s : State} (h : s.canIssue = true) {w : Word} {c : Chan} (hw : w.toNat = c.val) :
    execStart w s = .next ((s.emit (.force c)).respond none) := by
  simp [execStart, issuing_of_canIssue h, chan?_eq_some.2 hw]

theorem illegalPriority_eq_false {p : Word} : illegalPriority p = false ↔ 1 ≤ p.toNat ∧ p.toNat ≤ 7 := by
  simp only [illegalPriority, iplMin, iplMax, Bool.or_eq_false_iff, decide_eq_false_iff_not]
  omega

theorem execSetPri_next {s : State} (h : s.canIssue = true) {w p : Word} {c : Chan} (hw : w.toNat = c.val)
    (hp : 1 ≤ p.toNat ∧ p.toNat ≤ 7) : execSetPri w p s = .next ((setIpl c p s).respond none) := by
  simp [execSetPri, issuing_of_canIssue h, chan?_eq_some.2 hw, illegalPriority_eq_false.2 hp]

theorem execSetPri_illegal {s : State} (h : s.canIssue = true) {w p : Word} {c : Chan} (hw : w.toNat = c.val)
    (hp : p.toNat < 1 ∨ 7 < p.toNat) : execSetPri w p s = .next (s.raiseError .invalidPriority opSetPri p) := by
  have : illegalPriority p = true := by
    cases hi : illegalPriority p
    · have := illegalPriority_eq_false.1 hi
      omega
    · rfl
  simp [execSetPri, issuing_of_canIssue h, chan?_eq_some.2 hw, this]

theorem execComplete_next {s : State} (h : s.canIssue = true) {w : Word} {c : Chan} (hw : w.toNat = c.val) :
    execComplete w s = .next ((setIf c s).respond none) := by
  simp [execComplete, issuing_of_canIssue h, chan?_eq_some.2 hw]

theorem execConfigure_next {s : State} (h : s.canIssue = true) {o : ConfigOperands} {c : Chan}
    (hw : o.channel.toNat = c.val) (hl : EnumeratedLegal s.cfg o) (ht : o.transferCount ≠ 0) :
    execConfigure o s = .next (applyConfigure c o s) := by
  simp [execConfigure, issuing_of_canIssue h, chan?_eq_some.2 hw, firstIllegal_eq_none.2 hl]
  exact fun e => absurd e ht

/-! ### A whole command, one inversion lemma each: if it answers a next state, then one of these -/

theorem execConfigure_cases {o : ConfigOperands} {s t : State} (h : execConfigure o s = .next t) :
    s.canIssue = true ∧
      ((7 < o.channel.toNat ∧ t = s.raiseError .invalidChannelId opConfigure o.channel) ∨
        ∃ c : Chan, o.channel.toNat = c.val ∧
          ((∃ kind value, firstIllegal s.cfg o = some (kind, value) ∧ t = s.raiseError kind opConfigure value) ∨
            (EnumeratedLegal s.cfg o ∧ o.transferCount ≠ 0 ∧ t = applyConfigure c o s))) := by
  obtain ⟨hc, h⟩ := issuing_eq_next.1 h
  refine ⟨hc, ?_⟩
  cases hch : chan? o.channel with
  | none =>
    simp only [hch, Host.Outcome.next.injEq] at h
    exact .inl ⟨chan?_eq_none.1 hch, h.symm⟩
  | some c =>
    refine .inr ⟨c, chan?_eq_some.1 hch, ?_⟩
    cases hf : firstIllegal s.cfg o with
    | some p =>
      simp only [hch, hf, Host.Outcome.next.injEq] at h
      exact .inl ⟨p.1, p.2, rfl, h.symm⟩
    | none =>
      simp only [hch, hf] at h
      split at h <;> simp only [reduceCtorEq, Host.Outcome.next.injEq] at h
      exact .inr ⟨firstIllegal_eq_none.1 hf, by assumption, h.symm⟩

/-- What the application phase leaves: an address failure of `buffer_a`, of `buffer_b`, or the whole bundle. -/
theorem applyConfigure_cases (c : Chan) (o : ConfigOperands) (s : State) :
    (BufferOutside s.cfg o.bufferA (legalBytes s.cfg o) ∧
      applyConfigure c o s = (applyEnumerated c o s).raiseError .invalidAddress opConfigure o.bufferA) ∨
    ∃ a : Offset, BufferAt s.cfg o.bufferA (legalBytes s.cfg o) a.toNat ∧
      ((BufferOutside s.cfg o.bufferB (legalBytes s.cfg o) ∧
        applyConfigure c o s = ((applyEnumerated c o s).modSlot c fun x => { x with sta := a }).raiseError
          .invalidAddress opConfigure o.bufferB) ∨
      ∃ b : Offset, BufferAt s.cfg o.bufferB (legalBytes s.cfg o) b.toNat ∧
        applyConfigure c o s = (applyTail c o ((applyEnumerated c o s).modSlot c fun x =>
          { x with sta := a, stb := b })).respond none) := by
  cases ha : bufferOffset s.cfg o o.bufferA with
  | none => exact .inl ⟨bufferOffset_eq_none.1 ha, by simp only [applyConfigure, ha]⟩
  | some a =>
    refine .inr ⟨a, bufferOffset_eq_some.1 ha, ?_⟩
    cases hb : bufferOffset s.cfg o o.bufferB with
    | none => exact .inl ⟨bufferOffset_eq_none.1 hb, by simp only [applyConfigure, ha, hb]⟩
    | some b =>
      exact .inr ⟨b, bufferOffset_eq_some.1 hb, by simp only [applyConfigure, ha, hb, State.modSlot_modSlot]⟩

theorem execTranslate_cases {a n : Word} {s t : State} (h : execTranslate a n s = .next t) :
    s.canIssue = true ∧
      ((BufferOutside s.cfg a n.toNat ∧ t = s.raiseError .invalidAddress opTranslate a) ∨
        ∃ offset, BufferAt s.cfg a n.toNat offset ∧ t = s.respond (some (BitVec.ofNat 16 offset))) := by
  obtain ⟨hc, h⟩ := issuing_eq_next.1 h
  refine ⟨hc, ?_⟩
  cases ht : translate s.cfg a n.toNat with
  | none =>
    simp only [ht, Host.Outcome.next.injEq] at h
    exact .inl ⟨translate_eq_none.1 ht, h.symm⟩
  | some offset =>
    simp only [ht, Host.Outcome.next.injEq] at h
    exact .inr ⟨offset, translate_eq_some.1 ht, h.symm⟩

theorem execIdle_cases {s t : State} (h : execIdle s = .next t) :
    s.canIssue = true ∧ s.active = [] ∧
      ((s.idleCnt.toNat ≠ 1000 ∧ t = s.respond none) ∨
        (s.idleCnt.toNat = 1000 ∧ t = (beginWait s).setCmd (some .w3))) := by
  obtain ⟨hc, h⟩ := issuing_eq_next.1 h
  refine ⟨hc, ?_⟩
  split at h
  · simp at h
  · rename_i hh
    refine ⟨by simpa [State.inHandler] using hh, ?_⟩
    split at h
    · exact .inl ⟨by assumption, (Host.Outcome.next.inj h).symm⟩
    · rename_i h0
      exact .inr ⟨by simpa using h0, (Host.Outcome.next.inj h).symm⟩

/-- A command whose first check is its channel either reports it or goes on with the slot. -/
theorem channelCommand_cases {w : Word} {op : BitVec 4} {s t : State} {k : Chan → Result}
    (h : issuing s (match chan? w with
      | none => .next (s.raiseError .invalidChannelId op w)
      | some c => k c) = .next t) :
    s.canIssue = true ∧
      ((7 < w.toNat ∧ t = s.raiseError .invalidChannelId op w) ∨ ∃ c : Chan, w.toNat = c.val ∧ k c = .next t) := by
  obtain ⟨hc, h⟩ := issuing_eq_next.1 h
  refine ⟨hc, ?_⟩
  cases hch : chan? w with
  | none =>
    simp only [hch, Host.Outcome.next.injEq] at h
    exact .inl ⟨chan?_eq_none.1 hch, h.symm⟩
  | some c =>
    simp only [hch] at h
    exact .inr ⟨c, chan?_eq_some.1 hch, h⟩

theorem execEnable_cases {w : Word} {s t : State} (h : execEnable w s = .next t) :
    s.canIssue = true ∧
      ((7 < w.toNat ∧ t = s.raiseError .invalidChannelId opEnable w) ∨
        ∃ c : Chan, w.toNat = c.val ∧
          t = (if oneShot (s.slot c).mode then raiseCounter s.idleCnt (setEn c s) else setEn c s).respond none) := by
  obtain ⟨hc, h' | ⟨c, hw, _⟩⟩ := channelCommand_cases h
  · exact ⟨hc, .inl h'⟩
  · rw [execEnable_next hc hw] at h
    exact ⟨hc, .inr ⟨c, hw, (Host.Outcome.next.inj h).symm⟩⟩

theorem execDisable_cases {w : Word} {s t : State} (h : execDisable w s = .next t) :
    s.canIssue = true ∧
      ((7 < w.toNat ∧ t = s.raiseError .invalidChannelId opDisable w) ∨
        ∃ c : Chan, w.toNat = c.val ∧
          t = (if oneShot (s.slot c).mode then lowerCounter s.idleCnt (clearHalf c (clearEn c s))
            else clearHalf c (clearEn c s)).respond none) := by
  obtain ⟨hc, h' | ⟨c, hw, _⟩⟩ := channelCommand_cases h
  · exact ⟨hc, .inl h'⟩
  · rw [execDisable_next hc hw] at h
    exact ⟨hc, .inr ⟨c, hw, (Host.Outcome.next.inj h).symm⟩⟩

theorem execStart_cases {w : Word} {s t : State} (h : execStart w s = .next t) :
    s.canIssue = true ∧
      ((7 < w.toNat ∧ t = s.raiseError .invalidChannelId opStart w) ∨
        ∃ c : Chan, w.toNat = c.val ∧ t = (s.emit (.force c)).respond none) := by
  obtain ⟨hc, h' | ⟨c, hw, _⟩⟩ := channelCommand_cases h
  · exact ⟨hc, .inl h'⟩
  · rw [execStart_next hc hw] at h
    exact ⟨hc, .inr ⟨c, hw, (Host.Outcome.next.inj h).symm⟩⟩

theorem execSetPri_cases {w p : Word} {s t : State} (h : execSetPri w p s = .next t) :
    s.canIssue = true ∧
      ((7 < w.toNat ∧ t = s.raiseError .invalidChannelId opSetPri w) ∨
        ∃ c : Chan, w.toNat = c.val ∧
          (((p.toNat < 1 ∨ 7 < p.toNat) ∧ t = s.raiseError .invalidPriority opSetPri p) ∨
            ((1 ≤ p.toNat ∧ p.toNat ≤ 7) ∧ t = (setIpl c p s).respond none))) := by
  obtain ⟨hc, h' | ⟨c, hw, _⟩⟩ := channelCommand_cases h
  · exact ⟨hc, .inl h'⟩
  · refine ⟨hc, .inr ⟨c, hw, ?_⟩⟩
    by_cases hp : 1 ≤ p.toNat ∧ p.toNat ≤ 7
    · rw [execSetPri_next hc hw hp] at h
      exact .inr ⟨hp, (Host.Outcome.next.inj h).symm⟩
    · have hp' : p.toNat < 1 ∨ 7 < p.toNat := by omega
      rw [execSetPri_illegal hc hw hp'] at h
      exact .inl ⟨hp', (Host.Outcome.next.inj h).symm⟩

theorem execComplete_cases {w : Word} {s t : State} (h : execComplete w s = .next t) :
    s.canIssue = true ∧
      ((7 < w.toNat ∧ t = s.raiseError .invalidChannelId opComplete w) ∨
        ∃ c : Chan, w.toNat = c.val ∧ t = (setIf c s).respond none) := by
  obtain ⟨hc, h' | ⟨c, hw, _⟩⟩ := channelCommand_cases h
  · exact ⟨hc, .inl h'⟩
  · rw [execComplete_next hc hw] at h
    exact ⟨hc, .inr ⟨c, hw, (Host.Outcome.next.inj h).symm⟩⟩

/-! ### All commands at once -/

/-- What a whole command leaves of the contexts and of the idle hold: all of it, but for an IDLE that begins its wait. -/
theorem exec_contexts {i : Instr} {s t : State} (h : exec i s = .next t) :
    (t.active = s.active ∧ t.mainOp = s.mainOp ∧ t.idleHold = s.idleHold ∧ t.enteredSinceWait = s.enteredSinceWait) ∨
      (i = .idle ∧ s.active = [] ∧ s.idleCnt.toNat = 1000 ∧ t = (beginWait s).setCmd (some .w3)) := by
  cases i <;> simp only [exec] at h
  case configure o =>
    left
    obtain ⟨_, ⟨_, rfl⟩ | ⟨c, _, ⟨_, _, _, rfl⟩ | ⟨_, _, rfl⟩⟩⟩ := execConfigure_cases h
    · simp
    · simp
    · rcases applyConfigure_cases c o s with ⟨_, h⟩ | ⟨_, _, ⟨_, h⟩ | ⟨_, _, h⟩⟩ <;> simp [h]
  case translate =>
    left
    obtain ⟨_, ⟨_, rfl⟩ | ⟨_, _, rfl⟩⟩ := execTranslate_cases h <;> simp
  case idle =>
    obtain ⟨_, ha, ⟨_, rfl⟩ | ⟨hi, rfl⟩⟩ := execIdle_cases h
    · simp
    · exact .inr ⟨rfl, ha, hi, rfl⟩
  case enable =>
    left
    obtain ⟨_, ⟨_, rfl⟩ | ⟨_, _, rfl⟩⟩ := execEnable_cases h <;> [skip; split] <;> simp
  case disable =>
    left
    obtain ⟨_, ⟨_, rfl⟩ | ⟨_, _, rfl⟩⟩ := execDisable_cases h <;> [skip; split] <;> simp
  case start =>
    left
    obtain ⟨_, ⟨_, rfl⟩ | ⟨_, _, rfl⟩⟩ := execStart_cases h <;> simp
  case setPri =>
    left
    obtain ⟨_, ⟨_, rfl⟩ | ⟨_, _, ⟨_, rfl⟩ | ⟨_, rfl⟩⟩⟩ := execSetPri_cases h <;> simp
  case complete =>
    left
    obtain ⟨_, ⟨_, rfl⟩ | ⟨_, _, rfl⟩⟩ := execComplete_cases h <;> simp
  all_goals
    obtain ⟨_, h⟩ := issuing_eq_next.1 h
    cases h
    simp

/-- What a whole command does to slot `c`: nothing, unless it is one of the five that write the slot of their channel. -/
theorem exec_slot {i : Instr} {s t : State} (h : exec i s = .next t) (c : Chan) :
    t.slot c = s.slot c ∨
    (∃ o, i = .configure o ∧ o.channel.toNat = c.val ∧ (t.slot c).en = false ∧ (t.slot c).half = (s.slot c).half ∧
      (t.slot c).ipl = (s.slot c).ipl ∧
      ((t.slot c).ifFlag = (s.slot c).ifFlag ∧ (t.slot c).ie = (s.slot c).ie ∧ (t.slot c).cb = (s.slot c).cb ∨
        (t.slot c).cb = o.callback ∧ (t.slot c).ie = (o.callback != cbNone) ∧
          (t.slot c).ifFlag = if o.callback = cbNone then false else (s.slot c).ifFlag)) ∨
    (∃ w, i = .enable w ∧ w.toNat = c.val ∧ t.slot c = { s.slot c with en := true }) ∨
    (∃ w, i = .disable w ∧ w.toNat = c.val ∧ t.slot c = { s.slot c with en := false, half := false }) ∨
    (∃ w p, i = .setPri w p ∧ w.toNat = c.val ∧ t.slot c = { s.slot c with ipl := p.setWidth 3 }) ∨
    (∃ w, i = .complete w ∧ w.toNat = c.val ∧ t.slot c = { s.slot c with ifFlag := true }) := by
  cases i <;> simp only [exec] at h
  case configure o =>
    obtain ⟨_, ⟨_, rfl⟩ | ⟨d, hd, ⟨_, _, _, rfl⟩ | ⟨_, _, rfl⟩⟩⟩ := execConfigure_cases h
    · simp
    · simp
    · by_cases e : c = d
      · subst e
        refine .inr (.inl ⟨o, rfl, hd, ?_⟩)
        rcases applyConfigure_cases c o s with ⟨_, h⟩ | ⟨_, _, ⟨_, h⟩ | ⟨_, _, h⟩⟩ <;>
          simp [h, applyEnumerated, applyTail]
      · left
        rcases applyConfigure_cases d o s with ⟨_, h⟩ | ⟨_, _, ⟨_, h⟩ | ⟨_, _, h⟩⟩ <;>
          simp [h, applyEnumerated, applyTail, State.slot_modSlot, e]
  case translate => obtain ⟨_, ⟨_, rfl⟩ | ⟨_, _, rfl⟩⟩ := execTranslate_cases h <;> simp
  case idle => obtain ⟨_, _, ⟨_, rfl⟩ | ⟨_, rfl⟩⟩ := execIdle_cases h <;> simp
  case start => obtain ⟨_, ⟨_, rfl⟩ | ⟨_, _, rfl⟩⟩ := execStart_cases h <;> simp
  case enable w =>
    obtain ⟨_, ⟨_, rfl⟩ | ⟨d, hd, rfl⟩⟩ := execEnable_cases h
    · simp
    · by_cases e : c = d
      · subst e
        refine .inr (.inr (.inl ⟨w, rfl, hd, ?_⟩))
        split <;> simp [setEn]
      · left
        split <;> simp [setEn, State.slot_modSlot, e]
  case disable w =>
    obtain ⟨_, ⟨_, rfl⟩ | ⟨d, hd, rfl⟩⟩ := execDisable_cases h
    · simp
    · by_cases e : c = d
      · subst e
        refine .inr (.inr (.inr (.inl ⟨w, rfl, hd, ?_⟩)))
        split <;> simp [clearHalf, clearEn]
      · left
        split <;> simp [clearHalf, clearEn, State.slot_modSlot, e]
  case setPri w p =>
    obtain ⟨_, ⟨_, rfl⟩ | ⟨d, hd, ⟨_, rfl⟩ | ⟨_, rfl⟩⟩⟩ := execSetPri_cases h
    · simp
    · simp
    · by_cases e : c = d
      · subst e
        exact .inr (.inr (.inr (.inr (.inl ⟨w, p, rfl, hd, by simp [setIpl]⟩))))
      · simp [setIpl, State.slot_modSlot, e]
  case complete w =>
    obtain ⟨_, ⟨_, rfl⟩ | ⟨d, hd, rfl⟩⟩ := execComplete_cases h
    · simp
    · by_cases e : c = d
      · subst e
        exact .inr (.inr (.inr (.inr (.inr ⟨w, rfl, hd, by simp [setIf]⟩))))
      · simp [setIf, State.slot_modSlot, e]
  all_goals
    obtain ⟨_, h⟩ := issuing_eq_next.1 h
    cases h
    simp

/-- What a whole command does to the counter: nothing, or the write of INHIBIT or of RELEASE from its present value. -/
theorem exec_idleCnt {i : Instr} {s t : State} (h : exec i s = .next t) :
    t.idleCnt = s.idleCnt ∨
    ((i = .inhibit ∨ ∃ w, i = .enable w) ∧ t.idleCnt = (raiseCounter s.idleCnt s).idleCnt) ∨
    ((i = .release ∨ ∃ w, i = .disable w) ∧ t.idleCnt = (lowerCounter s.idleCnt s).idleCnt) := by
  cases i <;> simp only [exec] at h
  case configure o =>
    left
    obtain ⟨_, ⟨_, rfl⟩ | ⟨c, _, ⟨_, _, _, rfl⟩ | ⟨_, _, rfl⟩⟩⟩ := execConfigure_cases h
    · simp
    · simp
    · rcases applyConfigure_cases c o s with ⟨_, h⟩ | ⟨_, _, ⟨_, h⟩ | ⟨_, _, h⟩⟩ <;> simp [h]
  case translate => obtain ⟨_, ⟨_, rfl⟩ | ⟨_, _, rfl⟩⟩ := execTranslate_cases h <;> simp
  case idle => obtain ⟨_, _, ⟨_, rfl⟩ | ⟨_, rfl⟩⟩ := execIdle_cases h <;> simp
  case start => obtain ⟨_, ⟨_, rfl⟩ | ⟨_, _, rfl⟩⟩ := execStart_cases h <;> simp
  case setPri => obtain ⟨_, ⟨_, rfl⟩ | ⟨_, _, ⟨_, rfl⟩ | ⟨_, rfl⟩⟩⟩ := execSetPri_cases h <;> simp
  case complete => obtain ⟨_, ⟨_, rfl⟩ | ⟨_, _, rfl⟩⟩ := execComplete_cases h <;> simp
  case enable w =>
    obtain ⟨_, ⟨_, rfl⟩ | ⟨c, _, rfl⟩⟩ := execEnable_cases h
    · simp
    · split
      · exact .inr (.inl ⟨.inr ⟨w, rfl⟩, by simp only [State.respond_idleCnt, raiseCounter]; split <;> simp⟩)
      · simp
  case disable w =>
    obtain ⟨_, ⟨_, rfl⟩ | ⟨c, _, rfl⟩⟩ := execDisable_cases h
    · simp
    · split
      · exact .inr (.inr ⟨.inr ⟨w, rfl⟩, by simp only [State.respond_idleCnt, lowerCounter]; split <;> simp⟩)
      · simp
  all_goals
    obtain ⟨_, h⟩ := issuing_eq_next.1 h
    cases h
    simp

end Sys2Proof.Machine
end

