-- ==== Sys2Proof/Laws/Effects.lean ====
section
/-! SUPPORT. What one micro-step can do, said once: the slot field it writes, the counter, the continuation it leaves. -/

namespace Sys2Proof.Machine

/-- The one slot a micro-step writes, and how. -/
def slotWrite (k : Config) : Cont → Option (Chan × (Slot → Slot))
  | .c1 l => some (l.chan, fun x => { x with en := false })
  | .c2 l => some (l.chan, fun x => { x with req := l.ops.requestSource })
  | .c3 l => some (l.chan, fun x => { x with size := dataSizeOf l.ops.dataSize })
  | .c4 l => some (l.chan, fun x => { x with dir := directionOf l.ops.direction })
  | .c5 l => some (l.chan, fun x => { x with timing := timingOf l.ops.interruptTiming })
  | .c6 l => some (l.chan, fun x => { x with nullw := nullWriteOf l.ops.nullWriteMode })
  | .c7 l => some (l.chan, fun x => { x with amode := addrModeOf l.ops.addressingMode })
  | .c8 l => some (l.chan, fun x => { x with mode := opModeOf l.ops.operatingMode })
  | .c9 l => (bufferOffset k l.ops l.ops.bufferA).map fun a => (l.chan, fun x => { x with sta := a })
  | .c10 l => (bufferOffset k l.ops l.ops.bufferB).map fun b => (l.chan, fun x => { x with stb := b })
  | .c11 l => some (l.chan, fun x => { x with pad := l.ops.peripheralAddress })
  | .c12 l => some (l.chan, fun x => { x with cnt := l.ops.transferCount })
  | .c13 l => some (l.chan, fun x => { x with cb := l.ops.callback })
  | .c14 l => some (l.chan, fun x => { x with ie := l.ops.callback != cbNone })
  | .c15 l => if l.ops.callback = cbNone then some (l.chan, fun x => { x with ifFlag := false }) else none
  | .e2 c => some (c, fun x => { x with en := true })
  | .x2 c => some (c, fun x => { x with en := false })
  | .x3 c => some (c, fun x => { x with half := false })
  | .p3 c p => some (c, fun x => { x with ipl := p.setWidth 3 })
  | .f2 c => some (c, fun x => { x with ifFlag := true })
  | _ => none

/-- The counter after a micro-step. -/
def counterAfter (s : State) : Cont → Word
  | .i2 t => (raiseCounter t s).idleCnt
  | .r2 t => (lowerCounter t s).idleCnt
  | _ => s.idleCnt

theorem microStep_slot {k : Cont} {s t : State} (h : microStep k s = .next t) (d : Chan) :
    t.slot d = match slotWrite s.cfg k with
      | some (c, f) => if d = c then f (s.slot c) else s.slot d
      | none => s.slot d := by
  cases k <;>
    simp only [microStep, microV1, microV2, microV3, microV4, microV5, microV6, microV7, microV8, validateStep, microC1,
      microC2, microC3, microC4, microC5, microC6, microC7, microC8, microC9, microC10, microC11, microC12, microC13,
      microC14, microC15, microT1, microI1, microI2, microR1, microR2, microM1, microW1, microW2, microW3, microE1,
      microE2, microE3, microX1, microX2, microX3, microX4, microS1, microS2, microP1, microP2, microP3, microF1, microF2,
      goto, finish, abort] at h
  case c9 l => split at h <;> cases h <;> simp_all [slotWrite, State.slot_modSlot]
  case c10 l => split at h <;> cases h <;> simp_all [slotWrite, State.slot_modSlot]
  case c15 l =>
    cases h
    by_cases hcb : l.ops.callback = cbNone
    · simp [slotWrite, hcb, clearIf, State.slot_modSlot]
    · simp only [slotWrite, if_neg hcb, State.setCmd_slot, State.respond_slot]
  all_goals
    repeat' split at h
    all_goals cases h
    all_goals simp [slotWrite, State.slot_modSlot, setEn, clearEn, clearHalf, setIf, setIe, setIpl]

theorem microStep_idleCnt {k : Cont} {s t : State} (h : microStep k s = .next t) : t.idleCnt = counterAfter s k := by
  cases k <;>
    simp only [microStep, microV1, microV2, microV3, microV4, microV5, microV6, microV7, microV8, validateStep, microC1,
      microC2, microC3, microC4, microC5, microC6, microC7, microC8, microC9, microC10, microC11, microC12, microC13,
      microC14, microC15, microT1, microI1, microI2, microR1, microR2, microM1, microW1, microW2, microW3, microE1,
      microE2, microE3, microX1, microX2, microX3, microX4, microS1, microS2, microP1, microP2, microP3, microF1, microF2,
      goto, finish, abort] at h
  all_goals
    repeat' split at h
    all_goals cases h
    all_goals simp [counterAfter]

/-- Setting a continuation reads the contexts alone. -/
theorem State.setCmd_congr {s u : State} (k : Option Cont) (ha : u.active = s.active) (hm : u.mainOp = s.mainOp) :
    (u.setCmd k).active = (s.setCmd k).active ∧ (u.setCmd k).mainOp = (s.setCmd k).mainOp := by
  cases h : s.active <;> simp [State.setCmd, ha, hm, h]

/-- What a micro-step leaves of the contexts: the running command goes on at `l` (or ends), with what its earlier checks
established; the hold changes only at `w2`. -/
def ContextAfter (k : Cont) (s t : State) : Prop :=
  ∃ l : Option Cont, t.active = (s.setCmd l).active ∧ t.mainOp = (s.setCmd l).mainOp ∧ t.cfg = s.cfg ∧
    t.schedule = s.schedule ∧
    (∀ k', l = some k' → (ContLegal s.cfg k → ContLegal s.cfg k') ∧ (IdleCont k' → IdleCont k)) ∧
    (t.idleHold = s.idleHold ∨ k = .w2 ∧ l = some .w3 ∧ t.idleHold = true)

theorem contextAfter_goto {k l : Cont} {s u : State} (ha : u.active = s.active) (hm : u.mainOp = s.mainOp)
    (hc : u.cfg = s.cfg) (hs : u.schedule = s.schedule) (hh : u.idleHold = s.idleHold)
    (hk : (ContLegal s.cfg k → ContLegal s.cfg l) ∧ (IdleCont l → IdleCont k)) :
    ContextAfter k s (u.setCmd (some l)) := by
  refine ⟨some l, (State.setCmd_congr _ ha hm).1, (State.setCmd_congr _ ha hm).2, by simp [hc], by simp [hs], ?_,
    .inl (by simp [hh])⟩
  rintro k' ⟨⟩
  exact hk

theorem contextAfter_end {k : Cont} {s u : State} (ha : u.active = s.active) (hm : u.mainOp = s.mainOp)
    (hc : u.cfg = s.cfg) (hs : u.schedule = s.schedule) (hh : u.idleHold = s.idleHold) :
    ContextAfter k s (u.setCmd none) := by
  refine ⟨none, (State.setCmd_congr _ ha hm).1, (State.setCmd_congr _ ha hm).2, by simp [hc], by simp [hs], ?_,
    .inl (by simp [hh])⟩
  simp

theorem microStep_context {k : Cont} {s t : State} (h : microStep k s = .next t) : ContextAfter k s t := by
  cases k <;>
    simp only [microStep, microV1, microV2, microV3, microV4, microV5, microV6, microV7, microV8, validateStep, microC1,
      microC2, microC3, microC4, microC5, microC6, microC7, microC8, microC9, microC10, microC11, microC12, microC13,
      microC14, microC15, microT1, microI1, microI2, microR1, microR2, microM1, microW1, microW2, microW3, microE1,
      microE2, microE3, microX1, microX2, microX3, microX4, microS1, microS2, microP1, microP2, microP3, microF1, microF2,
      goto, finish, abort] at h
  case w2 =>
    cases h
    refine ⟨some .w3, (State.setCmd_congr (s := s) (u := beginWait s) _ rfl rfl).1,
      (State.setCmd_congr (s := s) (u := beginWait s) _ rfl rfl).2, by simp, by simp, ?_,
      .inr ⟨rfl, rfl, by simp⟩⟩
    rintro k' ⟨⟩
    simp [ContLegal, IdleCont]
  case v2 c o =>
    split at h <;> cases h
    · exact contextAfter_end (by simp) (by simp) (by simp) (by simp) (by simp)
    · exact contextAfter_goto rfl rfl rfl rfl rfl (by simp_all [ContLegal, IdleCont])
  case p2 c p =>
    split at h <;> cases h
    · exact contextAfter_end (by simp) (by simp) (by simp) (by simp) (by simp)
    · rename_i hp
      have := illegalPriority_eq_false.1 (Bool.eq_false_iff.2 hp)
      exact contextAfter_goto rfl rfl rfl rfl rfl (by simp only [ContLegal, IdleCont, iplMin, iplMax]; simp [this])
  case c15 l =>
    cases h
    exact contextAfter_end (by split <;> simp) (by split <;> simp) (by split <;> simp) (by split <;> simp)
      (by split <;> simp)
  all_goals
    repeat' split at h
    all_goals cases h
    all_goals first
      | exact contextAfter_end (by simp) (by simp) (by simp) (by simp) (by simp)
      | exact contextAfter_goto (by simp) (by simp) (by simp) (by simp) (by simp) (by simp [ContLegal, IdleCont])

/-- The bit of log entry 7 that a handler has been entered since `w2`: of all micro-steps only `w2` writes it. -/
theorem microStep_enteredSinceWait {k : Cont} {s t : State} (h : microStep k s = .next t) :
    t.enteredSinceWait = s.enteredSinceWait ∨ k = .w2 ∧ t = (beginWait s).setCmd (some .w3) := by
  cases k <;>
    simp only [microStep, microV1, microV2, microV3, microV4, microV5, microV6, microV7, microV8, validateStep, microC1,
      microC2, microC3, microC4, microC5, microC6, microC7, microC8, microC9, microC10, microC11, microC12, microC13,
      microC14, microC15, microT1, microI1, microI2, microR1, microR2, microM1, microW1, microW2, microW3, microE1,
      microE2, microE3, microX1, microX2, microX3, microX4, microS1, microS2, microP1, microP2, microP3, microF1, microF2,
      goto, finish, abort] at h
  case w2 => exact .inr ⟨rfl, (Host.Outcome.next.inj h).symm⟩
  case c15 l =>
    cases h
    split <;> simp
  all_goals
    repeat' split at h
    all_goals cases h
    all_goals simp

end Sys2Proof.Machine
end

