-- ==== Sys2Proof/Laws/PerInstr.lean ====
section
/-! SUPPORT. Facts about each command as syntax, one lemma per constructor. -/

namespace Sys2Proof.Laws.Header

/-- The first word of a command's packet has clear reserved bits and the command's opcode, and the packet has the length
that opcode calls for (R80, R83). -/
def Statement (i : Instr) : Prop :=
  ∃ h ops, encode i = h :: ops ∧ headerReserved h = 0 ∧ headerOpcode h = i.opcode ∧ (encode i).length = packetLength h

/-- The statement follows from the shape of an encoding. -/
theorem of_encode (i : Instr) : Statement i :=
  ⟨i.opcode.setWidth 16, i.operandWords, rfl, headerReserved_setWidth _, headerOpcode_setWidth _, encode_length i⟩

theorem configure (o : ConfigOperands) : Statement (.configure o) := of_encode _
theorem translate (address size : Word) : Statement (.translate address size) := of_encode _
theorem inhibit : Statement .inhibit := of_encode _
theorem release : Statement .release := of_encode _
theorem mayIdle : Statement .mayIdle := of_encode _
theorem idle : Statement .idle := of_encode _
theorem enable (channel : Word) : Statement (.enable channel) := of_encode _
theorem disable (channel : Word) : Statement (.disable channel) := of_encode _
theorem start (channel : Word) : Statement (.start channel) := of_encode _
theorem setPri (channel priority : Word) : Statement (.setPri channel priority) := of_encode _
theorem complete (channel : Word) : Statement (.complete channel) := of_encode _

end Sys2Proof.Laws.Header
end

