-- ==== Sys2Proof/Laws/Step.lean ====
section
/-! SUPPORT. A step and a run over the schedule, and what every global step of the schedule can do. -/

namespace Sys2Proof.Machine

/-- The slots do not depend on what is scheduled. -/
@[simp] theorem slot_schedule (s : State) (r : List Event) (c : Chan) : State.slot { s with schedule := r } c = s.slot c :=
  rfl

/-- A step takes the first entry of the schedule. -/
theorem step_of_schedule {s : State} {e : Event} {rest : List Event} (h : s.schedule = e :: rest) :
    step s = takeEvent e { s with schedule := rest } := by
  simp [step, takeNext, h]

/-- With nothing scheduled the block waits. -/
theorem step_of_nil {s : State} (h : s.schedule = []) : step s = .next s := by
  simp [step, takeNext, h]

/-- A run of `n + 1` steps is a step and a run of `n`. -/
theorem core_run_succ {s t : State} (h : step s = .next t) (n : Nat) : core.run (n + 1) s = core.run n t := by
  have : core.step s = .next t := h
  simp only [Host.Core.run]
  rw [this]

/-- The micro-steps of a whole command are global steps. -/
theorem runCommand_globalSteps {n : Nat} {s t : State} (h : runCommand n s = .next t) :
    Relation.ReflTransGen GlobalStep s t := by
  induction n generalizing s with
  | zero =>
    cases h
    exact .refl
  | succ n ih =>
    unfold runCommand at h
    cases hk : s.runningCmd with
    | none =>
      simp only [hk, Host.Outcome.next.injEq] at h
      subst h
      exact .refl
    | some k =>
      simp only [hk] at h
      cases hm : microStep k s with
      | next u =>
        rw [hm] at h
        exact (ih h).head (.command k hk hm)
      | fault => simp [hm] at h
      | refused => simp [hm] at h

theorem isIdle_iff (i : Instr) : isIdle i = true ↔ i = .idle := by cases i <;> simp [isIdle]

/-- Issuing a command, where it answers a next state, is the global step G4. -/
theorem issueCommand_globalStep {i : Instr} {s t : State} (h : issueCommand i s = .next t) : GlobalStep s t := by
  obtain ⟨hc, h⟩ := issuing_eq_next.1 h
  split at h
  · cases h
  · rename_i hn
    cases h
    refine .issue i ((canIssue_iff_mayIssue s).1 hc) ?_
    rintro rfl
    simpa [isIdle, State.inHandler] using hn

/-- What the issue of a command does. -/
theorem issueCommand_cases {i : Instr} {s t : State} (h : issueCommand i s = .next t) :
    s.canIssue = true ∧ t = s.setCmd (some (firstCont i)) := by
  obtain ⟨hc, h⟩ := issuing_eq_next.1 h
  split at h
  · cases h
  · exact ⟨hc, (Host.Outcome.next.inj h).symm⟩

/-- What a callback's return does. -/
theorem callbackReturn_cases {s t : State} (h : callbackReturn s = .next t) :
    ∃ hd below, s.active = hd :: below ∧ hd.phase = .callback ∧ hd.cmd = none ∧
      t = { s with active := { hd with phase := .d3 } :: below } := by
  unfold callbackReturn at h
  cases ha : s.active with
  | nil => simp [ha] at h
  | cons hd below =>
    simp only [ha] at h
    split at h
    · rename_i hp
      simp only [Bool.and_eq_true, beq_iff_eq, Option.isNone_iff_eq_none] at hp
      refine ⟨hd, below, rfl, hp.1, hp.2, ?_⟩
      rw [← Host.Outcome.next.inj h]
      simp [State.setPhase, ha]
    · cases h

/-- A `run` entry while a command is in progress is that command's micro-step. -/
theorem step_run_of_cmd {s : State} {k : Cont} {rest : List Event} (hs : s.schedule = .run :: rest)
    (hk : s.runningCmd = some k) : step s = microStep k { s with schedule := rest } := by
  rw [step_of_schedule hs]
  exact contextStep_of_cmd (s := { s with schedule := rest }) hk

/-- A `run` entry in a handler with no command in progress is the next step of its DISPATCH sequence. -/
theorem step_run_of_dispatch {s : State} {h : Handler} {below : List Handler} {rest : List Event}
    (hs : s.schedule = .run :: rest) (ha : s.active = h :: below) (hc : h.cmd = none) :
    step s = dispatchStep h.chan h.phase { s with schedule := rest } := by
  rw [step_of_schedule hs]
  exact contextStep_of_dispatch (s := { s with schedule := rest }) ha hc

end Sys2Proof.Machine
end

