-- ==== Sys2Proof/Tests/Slice0.lean ====
section
/-! SUPPORT. Tests. Expected results are the vectors of 95_test_vectors.md (V1.1 .. V5.12, P1), the worked encodings of R88
and the tables of the rules named in each comment; then the witnesses of the statements' hypotheses. -/

namespace Sys2Proof.Tests

open Sys2Proof.Machine

/-! ### Helpers -/

/-- What a next state is tested for. -/
def answers (r : Result) (p : State → Bool) : Bool :=
  match r with
  | .next t => p t
  | .fault _ => false
  | .refused _ => false

/-- The reset state with one slot changed. -/
def resetSlotIs (c : Chan) (f : Slot → Slot) : State := State.reset.modSlot c f

/-- The reset state with a counter value. -/
def counterIs (n : Word) : State := { State.reset with idleCnt := n }

/-- The first vector of CONFIGURE (V1.1). -/
def v1_1 : ConfigOperands := ⟨2, 0, 0, 0, 1, 0, 0, 3, 0x4000, 0x4100, 0x0300, 256, 1⟩

/-- `CH[2]` after V1.1. -/
def slotV1_1 : Slot where
  req := 0
  size := .byte
  dir := .peripheralToMemory
  timing := .full
  nullw := false
  amode := .am0
  mode := .oneShotPingPong
  sta := 0
  stb := 256
  pad := 0x0300
  cnt := 256
  cb := 1
  en := false
  half := false
  ipl := 4
  ie := true
  ifFlag := false

/-- The operands of V1.12 and V1.13 but for `buffer_b`. -/
def v1_12 (bufferB : Word) : ConfigOperands := ⟨0, 4, 1, 1, 0, 1, 2, 2, 0x4000, bufferB, 0x0111, 8, 5⟩

/-- A state in which the callback of channel 2 runs (entered at level 4, first half). -/
def inCallback : State :=
  { resetSlotIs 2 (fun x => { x with cb := 1, ie := true, en := true }) with
    active := [⟨2, 4, .callback, some true, none⟩] }

/-- A state in which the mainline is held by IDLE. -/
def held : State := { State.reset with mainOp := some .w3, idleHold := true }

/-! ### Operands and commands as syntax (R82, R31) -/

theorem test_wellFormed_configure : (Instr.configure v1_1).wellFormed = true := by decide
theorem test_wellFormed_zeroCount : (Instr.configure { v1_1 with transferCount := 0 }).wellFormed = false := by decide
theorem test_legal_configure : (Instr.configure v1_1).operandsLegal Config.default = true := by decide

/-- One illegal operand at a time (V1.2 to V1.9, V1.11, V1.12). -/
theorem test_illegal_configure :
    [{ v1_1 with channel := 8 }, { v1_1 with requestSource := 20 }, { v1_1 with dataSize := 2 },
      { v1_1 with direction := 2 }, { v1_1 with interruptTiming := 2 }, { v1_1 with nullWriteMode := 2 },
      { v1_1 with addressingMode := 3 }, { v1_1 with operatingMode := 4 }, { v1_1 with bufferA := 0x3FFE },
      { v1_1 with bufferB := 0x5F01 }].all (fun o => !(Instr.configure o).operandsLegal Config.default) = true := by
  decide

/-- V2.5, V2.6; V4.1, V4.5, V4.9, V4.11, V4.13, V4.14; V5.8. -/
theorem test_illegal_others :
    [Instr.translate 0x4000 8193, .translate 0x3FFF 1, .enable 8, .disable 65535, .start 8, .setPri 8 3, .setPri 2 0,
      .setPri 2 8, .complete 8].all (fun i => !i.operandsLegal Config.default) = true := by
  decide

/-- The numbers of the error kinds (R202). -/
theorem test_errorKind_codes :
    [ErrorKind.invalidChannelId, .invalidRequestSource, .invalidDataSize, .invalidTransferDirection,
      .invalidInterruptTiming, .invalidNullWriteMode, .invalidAddressingMode, .invalidOperatingMode, .invalidAddress,
      .invalidPriority].map ErrorKind.code = [1, 2, 3, 4, 5, 6, 7, 8, 9, 10] := by
  decide

/-! ### Decoding (R80 to R88): words written out from R83 and R88 -/

theorem test_decode_configure :
    decode [0x0001, 0x0002, 0x0000, 0x0000, 0x0000, 0x0001, 0x0000, 0x0000, 0x0003, 0x4000, 0x4100, 0x0300, 0x0100,
      0x0001] = .ok (.configure v1_1) := by decide
theorem test_decode_translate : decode [0x0002, 0x4100, 0x0100] = .ok (.translate 0x4100 256) := by decide
theorem test_decode_inhibit : decode [0x0003] = .ok .inhibit := by decide
theorem test_decode_release : decode [0x0004] = .ok .release := by decide
theorem test_decode_mayIdle : decode [0x0005] = .ok .mayIdle := by decide
theorem test_decode_idle : decode [0x0006] = .ok .idle := by decide
theorem test_decode_enable : decode [0x0007, 0x0002] = .ok (.enable 2) := by decide
theorem test_decode_disable : decode [0x0008, 0x0002] = .ok (.disable 2) := by decide
theorem test_decode_start : decode [0x0009, 0x0005] = .ok (.start 5) := by decide
theorem test_decode_setPri : decode [0x000A, 0x0002, 0x0005] = .ok (.setPri 2 5) := by decide
theorem test_decode_complete : decode [0x000B, 0x0002] = .ok (.complete 2) := by decide

/-- R85: opcodes 0x0 and 0xC..0xF, a reserved bit, a wrong length, no word. -/
theorem test_decode_illegal :
    [[0x0000], [0x000C], [0x000F], [0x0013], [0x8003], [0x0007], [0x0003, 0x0000], []].map (fun p : List Word => decode p) =
      [.error .illegalOpcode, .error .illegalOpcode, .error .illegalOpcode, .error .reservedBits, .error .reservedBits,
        .error .wrongLength, .error .wrongLength, .error .emptyPacket] := by
  decide

/-- The host's numbering: SETPRI 2, 5 with its words from bit 0 on, and a header alone, its operand words zero. -/
theorem test_tableWord : decodeTableWord 48 0x00050002000A = some (.setPri 2 5) ∧
    decodeTableWord 16 0x000A = some (.setPri 0 0) ∧ decodeTableWord 16 0x000C = none := by decide

/-- R87: a comment, a hexadecimal operand, the document's call syntax, the two trace markers, an unknown mnemonic. -/
theorem test_assembler :
    parseLine Config.default "  START 5 ; pulse".toList = some (.command (.start 5)) ∧
    parseLine Config.default "TRANSLATE UNUSED, 0x10".toList = some (.command (.translate 0 16)) ∧
    parseLine Config.default "set_priority(2, 5)".toList = some (.command (.setPri 2 5)) ∧
    parseLine Config.default "may_idle()".toList = some (.command .mayIdle) ∧
    parseLine Config.default "@irq 2".toList = some (.irq 2) ∧ parseLine Config.default "@ret".toList = some .ret ∧
    parseLine Config.default "NOP".toList = none ∧ parseLine Config.default "; only".toList = some .blank := by
  decide

/-! ### Commands, whole: one or two vectors each -/

/-- V1.1. -/
theorem test_configure_ok : answers (exec (.configure v1_1) State.reset) (fun t =>
    t.slot 2 == slotV1_1 && t.slot 3 == State.reset.slot 3 && t.trace == [.rsp (.ok none)]) = true := by decide

/-- V1.12: buffer A is stored before buffer B is found outside the window; the rest of the tail is not applied. -/
theorem test_configure_partial : answers (exec (.configure (v1_12 0x5FF2)) (resetSlotIs 0 fun x =>
      { x with sta := 7, stb := 9, en := true })) (fun t =>
    (t.slot 0).sta == 0 && (t.slot 0).stb == 9 && !(t.slot 0).en && (t.slot 0).mode == .continuousPingPong &&
      (t.slot 0).cb == 0 && t.trace == [.rsp .aborted, .err .invalidAddress 0x1 0x5FF2]) = true := by decide

/-- V2.9 and V2.10. -/
theorem test_translate_end : answers (exec (.translate 0x6000 0) State.reset) (fun t =>
    t.trace == [.rsp (.ok (some 8192))]) = true := by decide
theorem test_translate_outside : answers (exec (.translate 0x6000 1) State.reset) (fun t =>
    t.trace == [.rsp .aborted, .err .invalidAddress 0x2 0x6000]) = true := by decide

/-- V3.2 and V3.3. -/
theorem test_inhibit : answers (exec .inhibit (counterIs 1999)) (fun t => t.idleCnt == 2000) = true := by decide
theorem test_inhibit_ceiling : answers (exec .inhibit (counterIs 2000)) (fun t => t.idleCnt == 2000) = true := by decide

/-- V3.4 and V3.5. -/
theorem test_release : answers (exec .release (counterIs 1001)) (fun t => t.idleCnt == 1000) = true := by decide
theorem test_release_floor : answers (exec .release (counterIs 1000)) (fun t => t.idleCnt == 1000) = true := by decide

/-- V3.7 and V3.8. -/
theorem test_mayIdle : answers (exec .mayIdle (counterIs 1000)) (fun t => t.trace == [.rsp (.ok (some 1))]) = true := by
  decide
theorem test_mayIdle_inhibited :
    answers (exec .mayIdle (counterIs 1001)) (fun t => t.trace == [.rsp (.ok (some 0))]) = true := by decide

/-- V3.11 and V3.12. -/
theorem test_idle_inhibited : answers (exec .idle (counterIs 1001)) (fun t =>
    t.trace == [.rsp (.ok none)] && !t.idleHold) = true := by decide
theorem test_idle_waits : answers (exec .idle (counterIs 1000)) (fun t => t.trace == [.idleWait] && t.idleHold) = true := by
  decide

/-- V4.2 and V4.4. -/
theorem test_enable_oneShot :
    answers (exec (.enable 2) (resetSlotIs 2 fun x => { x with mode := .oneShotPingPong })) (fun t =>
      (t.slot 2).en && t.idleCnt == 1001) = true := by decide
theorem test_enable_continuous : answers (exec (.enable 2) (resetSlotIs 2 fun x => { x with half := true })) (fun t =>
    (t.slot 2).en && (t.slot 2).half && t.idleCnt == 1000) = true := by decide

/-- V4.6 and V4.8. -/
theorem test_disable_oneShot :
    answers (exec (.disable 2) { resetSlotIs 2 (fun x => { x with mode := .oneShotPingPong, en := true, half := true }) with
      idleCnt := 1001 }) (fun t => !(t.slot 2).en && !(t.slot 2).half && t.idleCnt == 1000) = true := by decide
theorem test_disable_continuous :
    answers (exec (.disable 2) { resetSlotIs 2 (fun x =>
      { x with mode := .continuousPingPong, en := true, half := true }) with idleCnt := 1005 }) (fun t =>
      !(t.slot 2).en && !(t.slot 2).half && t.idleCnt == 1005) = true := by decide

/-- V4.10 and V4.9. -/
theorem test_start : answers (exec (.start 5) State.reset) (fun t => t.trace == [.rsp (.ok none), .force 5]) = true := by
  decide
theorem test_start_invalid : answers (exec (.start 8) State.reset) (fun t =>
    t.trace == [.rsp .aborted, .err .invalidChannelId 0x9 8]) = true := by decide

/-- V4.12 and V4.16. -/
theorem test_setPri : answers (exec (.setPri 2 7) State.reset) (fun t =>
    (t.slot 2).ipl == 7 && (t.slot 1).ipl == 4) = true := by decide
theorem test_setPri_both : answers (exec (.setPri 9 0) State.reset) (fun t =>
    t.trace == [.rsp .aborted, .err .invalidChannelId 0xA 9]) = true := by decide

/-- V5.3 and V5.8. -/
theorem test_complete : answers (exec (.complete 2) State.reset) (fun t =>
    (t.slot 2).ifFlag && !(t.slot 2).half && t.active.isEmpty) = true := by decide
theorem test_complete_invalid : answers (exec (.complete 8) State.reset) (fun t =>
    t.trace == [.rsp .aborted, .err .invalidChannelId 0xB 8]) = true := by decide

/-! ### Global steps and DISPATCH -/

/-- V5.9: of two takeable channels, the one with the larger `IPL` is entered and the other is not. -/
theorem test_arbitration :
    let s := (resetSlotIs 1 fun x => { x with ipl := 5, ie := true, ifFlag := true, cb := 2 }).modSlot 2 fun x =>
      { x with ie := true, ifFlag := true, cb := 1 }
    s.enterable 1 = true ∧ s.enterable 2 = false := by decide

/-- V5.10 and V5.9: a handler preempts one of lower level only. -/
theorem test_nesting :
    let s := setIf 1 ((inCallback.modSlot 1 fun x => { x with ipl := 5, ie := true, cb := 2 }))
    s.enterable 1 = true ∧ (setIpl 1 4 s).enterable 1 = false := by decide

/-- V5.12: `d2` finds no callback. -/
theorem test_noCallback : dispatchStep 2 .d2 State.reset = .fault (.noCallback 2) := rfl

/-- V5.6, its step `d3`: the toggle takes the value `HALF` has then. -/
theorem test_d3_toggles : answers (dispatchStep 2 .d3 inCallback) (fun t => (t.slot 2).half) = true := by decide

/-- R145: the wake lifts the hold, and there is nothing to lift outside it. -/
theorem test_wake : (wakeMainline held).idleHold = false ∧ wakeMainline State.reset = State.reset := by decide

/-- R45: what the transfer engine sees after V1.1. -/
theorem test_cfgOut : answers (exec (.configure v1_1) State.reset) (fun t =>
    t.cfgOut 2 == ⟨0, .byte, .peripheralToMemory, .full, false, .am0, .oneShotPingPong, 0, 256, 0x0300, 256, false⟩) =
      true := by decide

/-- R85: an illegal header is refused by the step. -/
theorem test_illegal_step : step (placePacket [0x000C] State.reset) = .refused (.illegalCommand .illegalOpcode) := rfl

/-- V3.12 with U8: IDLE from a callback is refused. -/
theorem test_idle_callback : exec .idle inCallback = .refused .idleInCallback := rfl

/-! ### The invariant is inhabited, inside a callback -/

/-- A callback state is one where a command may be issued. -/
theorem mayIssue_callback : MayIssue inCallback := .inr ⟨_, _, rfl, rfl, rfl⟩

/-- So is the reset state. -/
theorem mayIssue_reset : MayIssue State.reset := .inl ⟨rfl, rfl, rfl⟩

theorem admissible_default : Config.default.Admissible := by
  constructor <;> decide

theorem inv_callback : Inv inCallback where
  cfg := admissible_default
  counter := by decide
  slots := by
    have h : ∀ c, (inCallback.slot c).req ∈ Config.default.reqLegal ∧ (inCallback.slot c).sta.toNat ≤ windowSize ∧
        (inCallback.slot c).stb.toNat ≤ windowSize ∧ iplMin ≤ (inCallback.slot c).ipl.toNat := by decide
    exact fun c => ⟨(h c).1, (h c).2.1, (h c).2.2.1, (h c).2.2.2⟩
  distinct := by decide
  levels := by simp [inCallback]
  handlers := by
    intro h hh
    have : h = ⟨2, 4, .callback, some true, none⟩ := by simpa [inCallback] using hh
    subst this
    exact ⟨by decide, by simp, by simp, by simp⟩
  mainline := by simp [inCallback, resetSlotIs, State.reset, State.resetWith]
  hold := by decide

/-! ### Witnesses: for each statement with hypotheses, a state and operands that meet them together -/

theorem witness_ResetPulseRestoresResetState : ({ held with schedule := [.reset] } : State).schedule = .reset :: [] := rfl

theorem witness_IllegalHeaderRefused :
    ((0x0010 : Word).toNat / 16 ≠ 0 ∧ (0x0000 : Word).toNat % 16 = 0 ∧ 12 ≤ (0x000C : Word).toNat % 16) ∧
      ({ State.reset with schedule := [.issue [0x000C]] } : State).schedule = .issue (0x000C :: []) :: [] ∧
      ({ State.reset with schedule := [.command [0x0010, 1]] } : State).schedule = .command (0x0010 :: [1]) :: [] := by
  decide

theorem witness_StepRunsDecodedCommand :
    (∃ (s : State) (packet : List Word) (rest : List Event) (i : Instr),
      s.schedule = .command packet :: rest ∧ decode packet = .ok i) ∧
      decodeTableWord 48 0x00050002000A = some (.setPri 2 5) :=
  ⟨⟨{ State.reset with schedule := [.command [0x0007, 2]] }, [0x0007, 2], [], .enable 2, rfl, rfl⟩, rfl⟩

theorem witness_IssueStartsAtFirstMicroStep :
    (∃ (s : State) (packet : List Word) (rest : List Event) (i : Instr), s.schedule = .issue packet :: rest ∧
      decode packet = .ok i ∧ MayIssue s ∧ (i = .idle → s.active = []) ∧ s.active ≠ []) ∧
    (∃ (s : State) (packet : List Word) (rest : List Event), s.schedule = .issue packet :: rest ∧
      decode packet = .ok .idle ∧ MayIssue s ∧ s.active = []) :=
  ⟨⟨{ inCallback with schedule := [.issue [0x0003]] }, [0x0003], [], .inhibit, rfl, rfl, mayIssue_callback, by simp,
    by simp [inCallback]⟩,
    ⟨{ State.reset with schedule := [.issue [0x0006]] }, [0x0006], [], rfl, rfl, mayIssue_reset, rfl⟩⟩

theorem witness_WholeCommandIsItsMicroSteps : 23 ≤ 23 := Nat.le_refl 23

/-- Each clause: one row, a wake that lifts the hold and one that finds none, a command taken whole. -/
theorem witness_StepTakesOnlyGlobalSteps :
    (∃ t, step { State.reset with schedule := [.completion 7] } = .next t) ∧
    (∃ t, step { held with schedule := [.wake] } = .next t ∧ t.idleHold = false) ∧
    (∃ t, step { State.reset with schedule := [.wake] } = .next t ∧ State.reset.idleHold = false) ∧
    (∃ t, step { State.reset with schedule := [.command (encode (.enable 2))] } = .next t) :=
  ⟨⟨_, rfl⟩, ⟨_, rfl, rfl⟩, ⟨_, rfl, rfl⟩, ⟨_, rfl⟩⟩

theorem witness_EveryGlobalStepCanBeTaken :
    (∃ s t, GlobalStep s t ∧ s.active = []) ∧ (∃ t, GlobalStep inCallback t) ∧ (∃ t, GlobalStep held t) :=
  ⟨⟨_, _, GlobalStep.completion (s := State.reset) 0, rfl⟩,
    ⟨_, .callbackReturn _ _ rfl rfl rfl⟩,
    ⟨_, .wake rfl (by decide)⟩⟩

theorem witness_InvariantHoldsAfterReset : Config.default.Admissible := admissible_default

theorem witness_EveryStepKeepsInvariant : ∃ s t : State, Inv s ∧ step s = .next t := ⟨inCallback, _, inv_callback, rfl⟩

theorem witness_NestingDepthBounded : ∃ s : State, Inv s ∧ s.cfg.nestPolicy = .priority ∧ s.active.length = 1 :=
  ⟨inCallback, inv_callback, rfl, rfl⟩

theorem witness_ParametersNeverChange : ∃ s t : State, step s = .next t := ⟨State.reset, _, rfl⟩

theorem legal_v1_1 : EnumeratedLegal Config.default v1_1 := by
  constructor <;> decide

theorem legal_v1_12 (w : Word) : EnumeratedLegal Config.default (v1_12 w) := by
  have h : EnumeratedLegal Config.default (v1_12 0) := by
    constructor <;> decide
  exact ⟨h.1, h.2, h.3, h.4, h.5, h.6, h.7⟩

theorem witness_ConfigureAppliesWholeBundle : MayIssue inCallback ∧ v1_1.channel.toNat = (2 : Chan).val ∧
    EnumeratedLegal inCallback.cfg v1_1 ∧ v1_1.transferCount ≠ 0 ∧
    BufferAt inCallback.cfg v1_1.bufferA (legalBytes inCallback.cfg v1_1) 0 ∧
    BufferAt inCallback.cfg v1_1.bufferB (legalBytes inCallback.cfg v1_1) 256 :=
  ⟨mayIssue_callback, by decide, legal_v1_1, by decide, by unfold BufferAt; decide, by unfold BufferAt; decide⟩

/-- Both rows: V1.11 (buffer A below the window) and V1.12 (buffer B one unit too far). -/
theorem witness_ConfigureAddressFailureIsNotRolledBack : MayIssue State.reset ∧
    (v1_12 0x5FF2).channel.toNat = (0 : Chan).val ∧ EnumeratedLegal State.reset.cfg (v1_12 0x5FF2) ∧
    (v1_12 0x5FF2).transferCount ≠ 0 ∧
    BufferOutside State.reset.cfg 0x3FFE (legalBytes State.reset.cfg (v1_12 0x5FF2)) ∧
    BufferAt State.reset.cfg (v1_12 0x5FF2).bufferA (legalBytes State.reset.cfg (v1_12 0x5FF2)) 0 ∧
    BufferOutside State.reset.cfg (v1_12 0x5FF2).bufferB (legalBytes State.reset.cfg (v1_12 0x5FF2)) :=
  ⟨mayIssue_reset, by decide, legal_v1_12 _, by decide, by unfold BufferOutside; decide, by unfold BufferAt; decide,
    by unfold BufferOutside; decide⟩

/-- The boundary value of each clause (V1.3 to V1.9), the other operands being those of V1.1, which are legal. -/
theorem witness_ConfigureReportsFirstIllegalOperand : MayIssue State.reset ∧ v1_1.channel.toNat ≤ 7 ∧
    7 < ({ v1_1 with channel := 8 } : ConfigOperands).channel.toNat ∧
    EnumeratedLegal State.reset.cfg v1_1 ∧
    ({ v1_1 with requestSource := 20 } : ConfigOperands).requestSource ∉ State.reset.cfg.reqLegal ∧
    1 < ({ v1_1 with dataSize := 2 } : ConfigOperands).dataSize.toNat ∧
    1 < ({ v1_1 with direction := 2 } : ConfigOperands).direction.toNat ∧
    1 < ({ v1_1 with interruptTiming := 2 } : ConfigOperands).interruptTiming.toNat ∧
    1 < ({ v1_1 with nullWriteMode := 2 } : ConfigOperands).nullWriteMode.toNat ∧
    2 < ({ v1_1 with addressingMode := 3 } : ConfigOperands).addressingMode.toNat ∧
    3 < ({ v1_1 with operatingMode := 4 } : ConfigOperands).operatingMode.toNat :=
  ⟨mayIssue_reset, by decide, by decide, legal_v1_1, by decide, by decide, by decide, by decide, by decide, by decide,
    by decide⟩

theorem witness_ConfigureOfZeroUnitsRefused : MayIssue State.reset ∧
    EnumeratedLegal State.reset.cfg { v1_1 with transferCount := 0 } ∧ v1_1.channel.toNat ≤ 7 :=
  ⟨mayIssue_reset, ⟨legal_v1_1.1, legal_v1_1.2, legal_v1_1.3, legal_v1_1.4, legal_v1_1.5, legal_v1_1.6, legal_v1_1.7⟩,
    by decide⟩

theorem witness_ConfiguredOffsetsInsideWindow : State.reset.cfg.Admissible ∧ v1_1.channel.toNat = (2 : Chan).val ∧
    ∃ t, exec (.configure v1_1) State.reset = .next t ∧ t.trace = .rsp (.ok none) :: State.reset.trace :=
  ⟨admissible_default, by decide, _, rfl, by decide⟩

/-- A state whose running command is at a micro-step of V1.1's application phase. -/
def atStep (k : Cont) : State := { State.reset with mainOp := some k, schedule := [.run] }

theorem witness_ConfigurationVisibleAtOnce (k : Cont) : (atStep k).schedule = .run :: [] ∧
    (atStep k).runningCmd = some k ∧ EnumeratedLegal (atStep k).cfg v1_1 ∧
    (atStep k).cfg = Config.default ∧
    BufferAt Config.default v1_1.bufferA (legalBytes Config.default v1_1) 0 ∧
    BufferAt Config.default v1_1.bufferB (legalBytes Config.default v1_1) 256 :=
  ⟨rfl, rfl, legal_v1_1, rfl, by unfold BufferAt; decide, by unfold BufferAt; decide⟩

/-- Each clause at its boundary: V2.2; V2.6; V2.5, V2.8, V2.10; V2.4, V2.7, V2.9. -/
theorem witness_TranslateFollowsItsPseudocode : MayIssue State.reset ∧
    (0x0000 : Word) = State.reset.cfg.unusedSentinel ∧
    ((0x3FFF : Word) ≠ State.reset.cfg.unusedSentinel ∧
      (0x3FFF : Word).toNat < State.reset.cfg.windowBase.toNat) ∧
    ((0x6000 : Word) ≠ State.reset.cfg.unusedSentinel ∧ State.reset.cfg.windowBase.toNat ≤ (0x6000 : Word).toNat ∧
      8192 < (0x6000 : Word).toNat - State.reset.cfg.windowBase.toNat + (1 : Word).toNat ∧
      (0x6000 : Word).toNat - State.reset.cfg.windowBase.toNat + (0 : Word).toNat ≤ 8192) :=
  ⟨mayIssue_reset, by decide, by decide, by decide⟩

/-- The ranges' ends: 999, 1000, 2000, 2001. -/
theorem witness_CounterUpdatesSaturate : MayIssue (counterIs 1000) ∧ MayIssue (counterIs 999) ∧
    MayIssue (counterIs 2001) ∧ 1000 ≤ (counterIs 2000).idleCnt.toNat ∧ (counterIs 2000).idleCnt.toNat ≤ 2000 ∧
    (counterIs 999).idleCnt.toNat < 1000 ∧ 2000 < (counterIs 2001).idleCnt.toNat ∧
    (∃ s : State, MayIssue s ∧ (7 : Word).toNat = (7 : Chan).val ∧ (s.slot 7).mode = .oneShot ∧
      s.idleCnt.toNat = 2000) :=
  ⟨.inl ⟨rfl, rfl, rfl⟩, .inl ⟨rfl, rfl, rfl⟩, .inl ⟨rfl, rfl, rfl⟩, by decide, by decide, by decide, by decide,
    ⟨{ resetSlotIs 7 (fun x => { x with mode := .oneShot }) with idleCnt := 2000 }, .inl ⟨rfl, rfl, rfl⟩, by decide,
      by decide, by decide⟩⟩

/-- V3.14: the mainline RELEASE reads 1002; channel 2 is pending. -/
def preempted : State :=
  { resetSlotIs 2 (fun x => { x with cb := 1, ie := true, ifFlag := true }) with
    idleCnt := 1002
    schedule := [.issue (encode .release), .run, .enter 2, .run, .run, .command (encode .inhibit), .callbackReturn, .run,
      .run, .run] }

theorem witness_PreemptedReleaseLosesInhibit : preempted.active = [] ∧ preempted.mainOp = none ∧
    preempted.idleHold = false ∧ 1001 ≤ preempted.idleCnt.toNat ∧ preempted.idleCnt.toNat ≤ 1999 ∧
    (preempted.slot 2).ifFlag = true ∧ (preempted.slot 2).ie = true ∧ (preempted.slot 2).cb ≠ cbNone ∧
    1 ≤ (preempted.slot 2).ipl.toNat ∧ (∀ d, d ≠ 2 → (preempted.slot d).ifFlag = false) ∧
    preempted.schedule = [.issue (encode .release), .run, .enter 2, .run, .run, .command (encode .inhibit),
      .callbackReturn, .run, .run, .run] :=
  ⟨by decide, by decide, by decide, by decide, by decide, by decide, by decide, by decide, by decide, by decide, rfl⟩

theorem witness_MayIdleReadsBaseline : MayIssue (counterIs 1000) ∧ MayIssue (counterIs 1001) ∧
    (counterIs 1000).idleCnt.toNat = 1000 ∧ (counterIs 1001).idleCnt.toNat ≠ 1000 :=
  ⟨.inl ⟨rfl, rfl, rfl⟩, .inl ⟨rfl, rfl, rfl⟩, by decide, by decide⟩

theorem witness_IdleWaitsOnlyAtBaseline : MayIssue (counterIs 1000) ∧ (counterIs 1000).active = [] ∧
    MayIssue (counterIs 1001) ∧ MayIssue inCallback ∧ inCallback.active ≠ [] :=
  ⟨.inl ⟨rfl, rfl, rfl⟩, rfl, .inl ⟨rfl, rfl, rfl⟩, mayIssue_callback, by decide⟩

/-- The held mainline, channel 2 takeable, one schedule entry of each kind. -/
def heldWith (e : Event) : State :=
  { resetSlotIs 2 (fun x => { x with cb := 1, ie := true, ifFlag := true }) with
    mainOp := some .w3
    idleHold := true
    schedule := [e] }

theorem witness_HeldMainlineTakesNoStep (e : Event) : (heldWith e).idleHold = true ∧ (heldWith e).active = [] ∧
    (heldWith e).schedule = e :: [] ∧ Takeable (heldWith e) 2 ∧
    (∀ d, Takeable (heldWith e) d → ((heldWith e).slot d).ipl.toNat ≤ ((heldWith e).slot 2).ipl.toNat) := by
  refine ⟨rfl, rfl, rfl, ?_, ?_⟩
  · exact (takeable_iff _ _).1 rfl
  · have : ∀ d, ((heldWith e).slot d).ipl.toNat ≤ ((heldWith e).slot 2).ipl.toNat := by
      show ∀ d, ((heldWith .wake).slot d).ipl.toNat ≤ ((heldWith .wake).slot 2).ipl.toNat
      decide
    exact fun d _ => this d

theorem witness_WakeFollowsPolicy :
    ({ held with schedule := [.wake, .run] } : State).idleHold = true ∧ held.cfg.wakePolicy = .envInput ∧
    held.active = [] ∧ held.mainOp = some .w3 ∧
    (∃ s : State, s.idleHold = true ∧ s.schedule = [.wake] ∧ s.cfg.wakePolicy = .onInterrupt ∧
      s.enteredSinceWait = true) ∧
    (∃ s : State, s.idleHold = true ∧ s.schedule = [.wake] ∧ s.cfg.wakePolicy = .onInterrupt ∧
      s.enteredSinceWait = false) ∧
    (∃ t, step (heldWith (.enter 2)) = .next t) ∧
    (∃ s : State, s.idleHold = true ∧ s.schedule = [.wake, .run] ∧ s.cfg.wakePolicy = .onInterrupt ∧
      s.enteredSinceWait = true ∧ s.active = [] ∧ s.mainOp = some .w3) :=
  ⟨rfl, rfl, rfl, rfl,
    ⟨{ held with schedule := [.wake], enteredSinceWait := true, cfg := { Config.default with wakePolicy := .onInterrupt } },
      rfl, rfl, rfl, rfl⟩,
    ⟨{ held with schedule := [.wake], cfg := { Config.default with wakePolicy := .onInterrupt } }, rfl, rfl, rfl, rfl⟩,
    ⟨_, rfl⟩,
    ⟨{ held with
        schedule := [.wake, .run], enteredSinceWait := true
        cfg := { Config.default with wakePolicy := .onInterrupt } }, rfl, rfl, rfl, rfl, rfl, rfl⟩⟩

theorem witness_InvalidChannelReportedAlone : MayIssue inCallback ∧ 7 < (8 : Word).toNat ∧
    ({ v1_1 with channel := 8 } : ConfigOperands).channel = 8 := ⟨mayIssue_callback, by decide, rfl⟩

/-- The two ends of the channel range and, of the mode's two clauses, both (V4.3, V4.4). -/
theorem witness_EnableSetsEnAndInhibits : MayIssue (counterIs 2000) ∧ (7 : Word).toNat = (7 : Chan).val ∧
    ((counterIs 2000).slot 7).mode = .continuous ∧
    (∃ s : State, MayIssue s ∧ (s.slot 0).mode = .oneShot ∧ s.idleCnt.toNat = 1000) :=
  ⟨.inl ⟨rfl, rfl, rfl⟩, by decide, by decide,
    ⟨resetSlotIs 0 fun x => { x with mode := .oneShot }, .inl ⟨rfl, rfl, rfl⟩, by decide, by decide⟩⟩

theorem witness_DisableClearsEnHalfAndReleases : MayIssue inCallback ∧ (2 : Word).toNat = (2 : Chan).val ∧
    (inCallback.slot 2).mode = .continuous ∧
    (∃ s : State, MayIssue s ∧ (s.slot 0).mode = .oneShotPingPong ∧ s.idleCnt.toNat = 1000) :=
  ⟨mayIssue_callback, by decide, by decide,
    ⟨resetSlotIs 0 fun x => { x with mode := .oneShotPingPong }, .inl ⟨rfl, rfl, rfl⟩, by decide, by decide⟩⟩

theorem witness_StartPulsesForce : MayIssue State.reset ∧ (7 : Word).toNat = (7 : Chan).val ∧ 7 < (8 : Word).toNat :=
  ⟨mayIssue_reset, by decide, by decide⟩

/-- Boundaries of the two clauses: 1, 7 and 0, 8 (V4.12 to V4.15). -/
theorem witness_SetPriWritesLegalPriority : MayIssue inCallback ∧ (2 : Word).toNat = (2 : Chan).val ∧
    (1 ≤ (1 : Word).toNat ∧ (7 : Word).toNat ≤ 7) ∧ (0 : Word).toNat < 1 ∧ 7 < (8 : Word).toNat :=
  ⟨mayIssue_callback, by decide, by decide, by decide, by decide⟩

theorem witness_CompleteSetsPending : MayIssue inCallback ∧ (2 : Word).toNat = (2 : Chan).val ∧ 7 < (8 : Word).toNat :=
  ⟨mayIssue_callback, by decide, by decide⟩

theorem witness_EnabledOneShotBlocksIdle : ∃ s : State, MayIssue s ∧ s.active = [] ∧
    (2 : Word).toNat = (2 : Chan).val ∧ (s.slot 2).mode = .oneShot ∧ 1000 ≤ s.idleCnt.toNat ∧ s.idleCnt.toNat ≤ 2000 :=
  ⟨resetSlotIs 2 fun x => { x with mode := .oneShot }, .inl ⟨rfl, rfl, rfl⟩, rfl, by decide, by decide, by decide,
    by decide⟩

theorem witness_ReportedIffOperandIllegal : MayIssue State.reset ∧ (Instr.configure v1_1).wellFormed = true ∧
    (Instr.idle = .idle → State.reset.active = []) := ⟨mayIssue_reset, by decide, fun _ => rfl⟩

theorem witness_AtMostOneReportPerCommand : ∃ t, exec (.configure { v1_1 with channel := 8 }) State.reset = .next t :=
  ⟨_, rfl⟩

theorem witness_CompletionEventOnlySetsPending :
    ({ held with schedule := [.completion 7] } : State).schedule = .completion 7 :: [] := rfl

theorem witness_HandlerEntryFollowsArbitration : (heldWith (.enter 2)).schedule = .enter 2 :: [] ∧
    (heldWith (.enter 2)).enterable 2 = true ∧ (heldWith (.enter 1)).schedule = .enter 1 :: [] ∧
    (heldWith (.enter 1)).enterable 1 = false := ⟨rfl, rfl, rfl, rfl⟩

theorem witness_MaskedChannelIsNeverEntered : (State.reset.slot 3).ie = false ∧
    ({ State.reset with schedule := [.completion 3] } : State).schedule = .completion 3 :: [] ∧
    ({ State.reset with schedule := [.enter 3] } : State).schedule = .enter 3 :: [] := ⟨by decide, rfl, rfl⟩

theorem witness_StaleEventMeetsNewCallback : ∃ s : State, MayIssue s ∧ s.active = [] ∧
    v1_1.channel.toNat = (2 : Chan).val ∧ EnumeratedLegal s.cfg v1_1 ∧ v1_1.transferCount ≠ 0 ∧
    BufferAt s.cfg v1_1.bufferA (legalBytes s.cfg v1_1) 0 ∧ BufferAt s.cfg v1_1.bufferB (legalBytes s.cfg v1_1) 256 ∧
    (s.slot 2).ifFlag = true ∧ 1 ≤ (s.slot 2).ipl.toNat ∧ v1_1.callback ≠ cbNone :=
  ⟨setIf 2 State.reset, .inl ⟨rfl, rfl, rfl⟩, rfl, by decide, legal_v1_1, by decide, by unfold BufferAt; decide,
    by unfold BufferAt; decide, by decide, by decide, by decide⟩

/-- A handler of channel 2 at each phase of DISPATCH; the callback registered or not. -/
def atPhase (p : Phase) (cb : Word) : State :=
  { resetSlotIs 2 (fun x => { x with cb := cb, ie := true }) with active := [⟨2, 4, p, none, none⟩], schedule := [.run] }

theorem witness_DispatchMicroSteps (p : Phase) :
    (atPhase p 1).active = ⟨2, 4, p, none, none⟩ :: [] ∧ (atPhase p 1).schedule = .run :: [] ∧
    ((atPhase p 1).slot 2).cb ≠ cbNone ∧ ((atPhase p 0).slot 2).cb = cbNone := by
  refine ⟨rfl, rfl, ?_, rfl⟩
  show ((atPhase .d1 1).slot 2).cb ≠ cbNone
  decide

theorem witness_CallbackReturnGoesToD3 :
    (∃ (s : State) (h : Handler) (below : List Handler), s.schedule = .callbackReturn :: [] ∧ s.active = h :: below ∧
      h.phase = .callback ∧ h.cmd = none) ∧
    (∃ s : State, s.schedule = .callbackReturn :: [] ∧
      ∀ h below, s.active = h :: below → h.phase ≠ .callback ∨ h.cmd ≠ none) :=
  ⟨⟨{ inCallback with schedule := [.callbackReturn] }, _, _, rfl, rfl, rfl, rfl⟩,
    ⟨{ State.reset with schedule := [.callbackReturn] }, rfl, fun h below e => by
      simp [State.reset, State.resetWith] at e⟩⟩

theorem witness_EventDuringCallbackIsKept :
    ∃ (s : State) (h : Handler) (below : List Handler), s.active = h :: below ∧ h.phase = .callback ∧ h.cmd = none ∧
      (∀ g ∈ below, g.chan ≠ h.chan) ∧ s.schedule = [.completion h.chan, .callbackReturn, .run, .run] :=
  ⟨{ inCallback with schedule := [.completion 2, .callbackReturn, .run, .run] }, _, [], rfl, rfl, rfl, by simp, rfl⟩

/-- V5.1 with three events: channel 2 ready, nothing pending. -/
theorem witness_DispatchesAlternateHalves :
    ∃ s : State, s.active = [] ∧ (s.slot 2).half = false ∧ (s.slot 2).ie = true ∧ (s.slot 2).cb ≠ cbNone ∧
      1 ≤ (s.slot 2).ipl.toNat ∧ (∀ d, d ≠ 2 → (s.slot d).ifFlag = false) ∧
      s.schedule = (List.replicate 3
        [Event.completion 2, .enter 2, .run, .run, .callbackReturn, .run, .run]).flatten :=
  ⟨{ resetSlotIs 2 (fun x => { x with cb := 1, ie := true }) with
      schedule := (List.replicate 3
        [Event.completion 2, .enter 2, .run, .run, .callbackReturn, .run, .run]).flatten },
    rfl, by decide, by decide, by decide, by decide, by decide, rfl⟩

theorem witness_SelfDisableLeavesBNext :
    ∃ (s : State) (h : Handler) (below : List Handler), s.active = h :: below ∧ h.phase = .callback ∧ h.cmd = none ∧
      (2 : Word).toNat = h.chan.val ∧ s.schedule = [.command (encode (.disable 2)), .callbackReturn, .run, .run] :=
  ⟨{ inCallback with schedule := [.command (encode (.disable 2)), .callbackReturn, .run, .run] }, _, _, rfl, rfl, rfl,
    by decide, rfl⟩

theorem witness_PreemptedMainlineKeepsItsPlace :
    ∃ (s t : State) (rest : List Event), s.schedule = .run :: rest ∧ Event.run ≠ .reset ∧ s.active ≠ [] ∧
      s.mainOp = some (.i2 1000) ∧ step s = .next t :=
  ⟨{ atPhase .d1 1 with mainOp := some (.i2 1000) }, _, [], rfl, by decide, by decide, rfl, rfl⟩

/-- A writer of each field: the field differs after the step, and the entry is no reset. -/
theorem witness_PriorityWrittenOnlyBySetPri :
    ∃ (s t : State) (rest : List Event), s.schedule = .command (encode (.setPri 2 7)) :: rest ∧ step s = .next t ∧
      (t.slot 2).ipl ≠ (s.slot 2).ipl :=
  ⟨{ State.reset with schedule := [.command (encode (.setPri 2 7))] }, _, [], rfl, rfl, by decide⟩

theorem witness_EnableBitSetOnlyByEnable :
    ∃ (s t : State) (rest : List Event), s.schedule = .run :: rest ∧ step s = .next t ∧ (s.slot 2).en = false ∧
      (t.slot 2).en = true :=
  ⟨atStep (.e2 2), _, [], rfl, rfl, by decide, by decide⟩

theorem witness_HalfWrittenOnlyByDispatchAndDisable :
    ∃ (s t : State) (rest : List Event), s.schedule = .run :: rest ∧ step s = .next t ∧
      (t.slot 2).half ≠ (s.slot 2).half :=
  ⟨atPhase .d3 1, _, [], rfl, rfl, by decide⟩

theorem witness_MaskWrittenOnlyByConfigure :
    ∃ (s t : State) (rest : List Event), s.schedule = .run :: rest ∧ step s = .next t ∧ (t.slot 2).ie ≠ (s.slot 2).ie :=
  ⟨atStep (.c14 ⟨2, v1_1, some 0, some 256⟩), _, [], rfl, rfl, by decide⟩

/-- Both clauses: set by a completion event, cleared by `d1`. -/
theorem witness_PendingFlagWriters :
    (∃ (s t : State) (rest : List Event), s.schedule = .completion 2 :: rest ∧ step s = .next t ∧
      (s.slot 2).ifFlag = false ∧ (t.slot 2).ifFlag = true) ∧
    (∃ (s t : State) (rest : List Event), s.schedule = .run :: rest ∧ step s = .next t ∧
      (s.slot 2).ifFlag = true ∧ (t.slot 2).ifFlag = false) :=
  ⟨⟨{ State.reset with schedule := [.completion 2] }, _, [], rfl, rfl, by decide, by decide⟩,
    ⟨setIf 2 (atPhase .d1 1), _, [], rfl, rfl, by decide, by decide⟩⟩

/-- Each clause at an end of its range, the counter having moved on since the read at `i1` or `r1`. -/
theorem witness_CounterWrittenOnlyByInhibitAndRelease :
    answers (step (atStep (.i2 1000))) (fun t => t.idleCnt == 1001) = true ∧
    answers (step { atStep (.i2 1999) with idleCnt := 1998 }) (fun t => t.idleCnt == 2000) = true ∧
    answers (step { atStep (.r2 1001) with idleCnt := 1002 }) (fun t => t.idleCnt == 1000) = true ∧
    answers (step { counterIs 1999 with schedule := [.command (encode .inhibit)] }) (fun t => t.idleCnt == 2000) = true ∧
    answers (step { counterIs 1001 with schedule := [.command (encode .release)] }) (fun t => t.idleCnt == 1000) =
      true := by
  decide

theorem witness_ConfigurationWrittenOnlyByConfigure :
    ∃ (s t : State) (rest : List Event), s.schedule = .run :: rest ∧ step s = .next t ∧
      (t.slot 2).pad ≠ (s.slot 2).pad :=
  ⟨atStep (.c11 ⟨2, v1_1, some 0, some 256⟩), _, [], rfl, rfl, by decide⟩

/-- Each kind of output occurs: a pulse, a callback call, a wait, a report with its response. -/
theorem witness_OutputsComeFromTheirOperations :
    answers (step (atStep (.s2 2))) (fun t => t.trace == [.rsp (.ok none), .force 2]) = true ∧
    answers (step (atPhase .d2 1)) (fun t => t.trace == [.cbCall 1 2 true]) = true ∧
    answers (step (atStep .w2)) (fun t => t.trace == [.idleWait]) = true ∧
    answers (step (atStep (.e1 8))) (fun t => t.trace == [.rsp .aborted, .err .invalidChannelId 0x7 8]) = true := by
  decide

theorem witness_WholeCommandKeepsMaskMatching :
    MaskMatchesCallback State.reset ∧ ∃ t, exec (.configure v1_1) State.reset = .next t :=
  ⟨by unfold MaskMatchesCallback; decide, _, rfl⟩

/-- `EN` is cleared by `x2` of a DISABLE and by `c1` of a CONFIGURE. -/
theorem witness_EnableBitClearedOnlyByDisableAndConfigure :
    (∃ (s t : State) (rest : List Event), s.schedule = .run :: rest ∧ step s = .next t ∧
      s.runningCmd = some (.x2 2) ∧ (s.slot 2).en = true ∧ (t.slot 2).en = false) ∧
    (∃ (s t : State) (rest : List Event), s.schedule = .run :: rest ∧ step s = .next t ∧
      s.runningCmd = some (.c1 ⟨2, v1_1, none, none⟩) ∧ (s.slot 2).en = true ∧ (t.slot 2).en = false) :=
  ⟨⟨setEn 2 (atStep (.x2 2)), _, [], rfl, rfl, rfl, by decide, by decide⟩,
    ⟨setEn 2 (atStep (.c1 ⟨2, v1_1, none, none⟩)), _, [], rfl, rfl, rfl, by decide, by decide⟩⟩

/-- Each clause: the hold set by IDLE run whole and by `w2`, which clears the bit; the hold cleared by the wake; the bit
set by a handler's entry. -/
theorem witness_IdleHoldWriters :
    (∃ t, step { counterIs 1000 with schedule := [.command (encode .idle)] } = .next t ∧
      (counterIs 1000).idleHold = false ∧ t.idleHold = true) ∧
    (∃ t, step { atStep .w2 with enteredSinceWait := true } = .next t ∧ (atStep .w2).idleHold = false ∧
      t.idleHold = true ∧ t.enteredSinceWait = false) ∧
    (∃ t, step (heldWith .wake) = .next t ∧ (heldWith .wake).idleHold = true ∧ t.idleHold = false) ∧
    (∃ t, step (heldWith (.enter 2)) = .next t ∧ (heldWith (.enter 2)).enteredSinceWait = false ∧
      t.enteredSinceWait = true) :=
  ⟨⟨_, rfl, rfl, rfl⟩, ⟨_, rfl, rfl, rfl, rfl⟩, ⟨_, rfl, rfl, rfl⟩, ⟨_, rfl, rfl, rfl⟩⟩

/-- A handler of channel 3 (level 5) at `phase`, above the callback of channel 2, which a command is in. -/
def nested (phase : Phase) : State :=
  { resetSlotIs 3 (fun x => { x with cb := 1, ie := true }) with
    active := [⟨3, 5, phase, none, none⟩, ⟨2, 4, .callback, some true, some (.i2 1000)⟩]
    schedule := [.run] }

/-- Each case: a push, a pop, `ACTIVE` kept empty, and kept with a preempted handler below. -/
theorem witness_ActiveWriters :
    (∃ t, step (heldWith (.enter 2)) = .next t ∧ t.active = [⟨2, 4, .d1, none, none⟩]) ∧
    (∃ t, step (nested .d4) = .next t ∧ t.active = [⟨2, 4, .callback, some true, some (.i2 1000)⟩]) ∧
    (∃ t, step (atStep (.i2 1000)) = .next t ∧ (atStep (.i2 1000)).active = [] ∧ t.active = []) ∧
    (∃ t, step (nested .d2) = .next t ∧ t.active.length = 2) :=
  ⟨⟨_, rfl, rfl⟩, ⟨_, rfl, rfl⟩, ⟨_, rfl, rfl, rfl⟩, ⟨_, rfl, rfl⟩⟩

/-- The state of V3.15, the counter at 1001, and channel 2, in a one-shot mode, pending; with what is scheduled. -/
def preemptedInhibit (events : List Event) : State :=
  { resetSlotIs 2 (fun x => { x with cb := 1, ie := true, ifFlag := true, mode := .oneShot }) with
    idleCnt := 1001
    schedule := events }

theorem witness_PreemptedInhibitLosesRelease (events : List Event) :
    (preemptedInhibit events).active = [] ∧ (preemptedInhibit events).mainOp = none ∧
    (preemptedInhibit events).idleHold = false ∧ 1001 ≤ (preemptedInhibit events).idleCnt.toNat ∧
    (preemptedInhibit events).idleCnt.toNat ≤ 1999 ∧ ((preemptedInhibit events).slot 2).ifFlag = true ∧
    ((preemptedInhibit events).slot 2).ie = true ∧ ((preemptedInhibit events).slot 2).cb ≠ cbNone ∧
    1 ≤ ((preemptedInhibit events).slot 2).ipl.toNat ∧
    (∀ d, d ≠ 2 → ((preemptedInhibit events).slot d).ifFlag = false) ∧
    (2 : Word).toNat = (2 : Chan).val ∧ ((preemptedInhibit events).slot 2).mode = .oneShot ∧
    (preemptedInhibit events).schedule = events := by
  have h : ∀ d, d ≠ 2 → ((preemptedInhibit []).slot d).ifFlag = false := by decide
  have hc : ((preemptedInhibit []).slot 2).cb ≠ cbNone := by decide
  have hn : 1001 ≤ (preemptedInhibit []).idleCnt.toNat ∧ (preemptedInhibit []).idleCnt.toNat ≤ 1999 ∧
      1 ≤ ((preemptedInhibit []).slot 2).ipl.toNat := by decide
  exact ⟨rfl, rfl, rfl, hn.1, hn.2.1, rfl, rfl, hc, hn.2.2, h, rfl, rfl, rfl⟩

end Sys2Proof.Tests
end

/-! O8: a command run whole is its issue and then its micro-steps. The lemmas run a command forward from a label, one
stretch of the pseudocode at a time, over the state `b` the running context was free in. -/

namespace Sys2Proof.Machine

/-! ### One micro-step of a command: it goes on, answers, or aborts -/

section MicroSteps

variable {n : Nat} {b t : State} {k l : Cont}

theorem runCommand_of_goto (hb : b.canIssue = true)
    (h : microStep k (b.setCmd (some k)) = goto l (t.setCmd (some k))) :
    runCommand (n + 1) (b.setCmd (some k)) = runCommand n (t.setCmd (some l)) := by
  rw [runCommand_setCmd hb, h, goto_setCmd, onNext_next]

theorem runCommand_of_finish {value : Option Word} (hb : b.canIssue = true)
    (h : microStep k (b.setCmd (some k)) = finish value (t.setCmd (some k))) (ht : t.canIssue = true) :
    runCommand (n + 1) (b.setCmd (some k)) = .next (t.respond value) := by
  rw [runCommand_setCmd hb, h, finish_setCmd _ _ _ ht, onNext_next, runCommand_of_canIssue (by simpa using ht)]

theorem runCommand_of_abort {kind : ErrorKind} {op : BitVec 4} {value : Word} (hb : b.canIssue = true)
    (h : microStep k (b.setCmd (some k)) = abort kind op value (b.setCmd (some k))) :
    runCommand (n + 1) (b.setCmd (some k)) = .next (b.raiseError kind op value) := by
  rw [runCommand_setCmd hb, h, abort_setCmd _ _ _ _ _ hb, onNext_next, runCommand_of_canIssue (by simpa using hb)]

end MicroSteps

/-! ### The micro-steps several commands share -/

section SharedMicroSteps

variable {n : Nat} {b : State} (hb : b.canIssue = true)
include hb

/-- The micro-steps `i1`, `i2` are INHIBIT (R141), as a command or as the last part of ENABLE. -/
theorem runCommand_i1 : runCommand (n + 2) (b.setCmd (some .i1)) = .next ((raiseCounter b.idleCnt b).respond none) := by
  have hi1 : microStep .i1 (b.setCmd (some .i1)) = goto (.i2 b.idleCnt) (b.setCmd (some .i1)) := by
    simp [microStep, microI1]
  rw [runCommand_of_goto hb hi1]
  exact runCommand_of_finish hb (by rw [State.setCmd_raiseCounter]; rfl) (by simpa using hb)

/-- The micro-steps `r1`, `r2` are RELEASE (R142), as a command or as the last part of DISABLE. -/
theorem runCommand_r1 : runCommand (n + 2) (b.setCmd (some .r1)) = .next ((lowerCounter b.idleCnt b).respond none) := by
  have hr1 : microStep .r1 (b.setCmd (some .r1)) = goto (.r2 b.idleCnt) (b.setCmd (some .r1)) := by
    simp [microStep, microR1]
  rw [runCommand_of_goto hb hr1]
  exact runCommand_of_finish hb (by rw [State.setCmd_lowerCounter]; rfl) (by simpa using hb)

/-- A command whose first micro-step is the channel check (R160): where the rest of it agrees for every valid channel,
the whole of it agrees. -/
theorem runCommand_channelCommand {w : Word} {op : BitVec 4} {k : Cont} {second : Chan → Cont} {whole : Chan → Result}
    (hfirst : microStep k (b.setCmd (some k)) = match chan? w with
      | none => abort .invalidChannelId op w (b.setCmd (some k))
      | some c => goto (second c) (b.setCmd (some k)))
    (hrest : ∀ c, runCommand n (b.setCmd (some (second c))) = whole c) :
    runCommand (n + 1) (b.setCmd (some k)) = match chan? w with
      | none => .next (b.raiseError .invalidChannelId op w)
      | some c => whole c := by
  cases hw : chan? w with
  | none => exact runCommand_of_abort hb (by rw [hfirst, hw])
  | some c => exact (runCommand_of_goto hb (by rw [hfirst, hw])).trans (hrest c)

end SharedMicroSteps

/-! ### CONFIGURE, one phase at a time (R110) -/

section Configure

variable {n : Nat} {b : State} (hb : b.canIssue = true)
include hb

/-- A validation step reports an illegal operand and ends the command, or goes on. -/
theorem runCommand_of_validateStep {illegal : Bool} {kind : ErrorKind} {value : Word} (k : Cont) {l : Cont}
    (h : microStep k (b.setCmd (some k)) = validateStep illegal kind value l (b.setCmd (some k))) :
    runCommand (n + 1) (b.setCmd (some k)) =
      if illegal then .next (b.raiseError kind opConfigure value) else runCommand n (b.setCmd (some l)) := by
  cases illegal
  · exact runCommand_of_goto hb h
  · exact runCommand_of_abort hb h

/-- `c1` to `c8` clear `EN` and write the enumerated fields. -/
theorem runCommand_c1 (l : ConfigLocals) :
    runCommand (n + 8) (b.setCmd (some (.c1 l))) =
      runCommand n ((applyEnumerated l.chan l.ops b).setCmd (some (.c9 l))) := by
  simp [runCommand_setCmd, hb, microStep, microC1, microC2, microC3, microC4, microC5, microC6, microC7, microC8,
    goto_setCmd_modSlot, clearEn, applyEnumerated]

/-- `c11` to `c15` write the rest of the bundle and answer. -/
theorem runCommand_c11 (l : ConfigLocals) :
    runCommand (n + 5) (b.setCmd (some (.c11 l))) = .next ((applyTail l.chan l.ops b).respond none) := by
  by_cases hcb : l.ops.callback = 0#16 <;>
    simp [runCommand_setCmd, hb, microStep, microC11, microC12, microC13, microC14, microC15, hcb, goto_setCmd,
      setIe, clearIf, State.modSlot_setCmd, finish_setCmd, runCommand_of_canIssue, applyTail]

/-- `c1` to `c15` are the application phase: between the enumerated fields and the rest, `c9` and `c10` store the
translated buffers, and an address outside the window ends the command there (R115, R118). -/
theorem runCommand_application (c : Chan) (o : ConfigOperands) :
    runCommand (n + 15) (b.setCmd (some (.c1 ⟨c, o, none, none⟩))) = .next (applyConfigure c o b) := by
  have he : (applyEnumerated c o b).canIssue = true := hb
  rw [runCommand_c1 hb]
  cases hx : bufferOffset b.cfg o o.bufferA with
  | none =>
    simp only [applyConfigure, hx]
    exact runCommand_of_abort he (by simp only [microStep, microC9, State.setCmd_cfg, applyEnumerated_cfg, hx])
  | some x =>
    have ha : ((applyEnumerated c o b).modSlot c fun w => { w with sta := x }).canIssue = true := hb
    rw [runCommand_of_goto (l := .c10 ⟨c, o, some x, none⟩)
      (t := (applyEnumerated c o b).modSlot c fun w => { w with sta := x }) he
      (by simp [microStep, microC9, hx, State.modSlot_setCmd])]
    cases hy : bufferOffset b.cfg o o.bufferB with
    | none =>
      simp only [applyConfigure, hx, hy]
      exact runCommand_of_abort ha
        (by simp only [microStep, microC10, State.setCmd_cfg, State.modSlot_cfg, applyEnumerated_cfg, hy])
    | some y =>
      rw [runCommand_of_goto (l := .c11 ⟨c, o, some x, some y⟩)
        (t := (applyEnumerated c o b).modSlot c fun w => { w with sta := x, stb := y }) ha
        (by simp [microStep, microC10, hy, State.modSlot_setCmd])]
      simp only [applyConfigure, hx, hy, State.modSlot_modSlot]
      exact runCommand_c11 (b := (applyEnumerated c o b).modSlot c fun w => { w with sta := x, stb := y }) hb _

/-- `v8` reports an illegal mode, refuses an empty transfer (R116), or goes on to the application phase. -/
theorem runCommand_v8 (c : Chan) (o : ConfigOperands) :
    runCommand (n + 16) (b.setCmd (some (.v8 c o))) =
      if 3 < o.operatingMode.toNat then .next (b.raiseError .invalidOperatingMode opConfigure o.operatingMode)
      else if o.transferCount = 0 then .refused .zeroTransferCount
      else .next (applyConfigure c o b) := by
  split_ifs with hm ht
  · exact runCommand_of_abort hb (by simp only [microStep, microV8, if_pos hm])
  · simp only [runCommand_setCmd hb, microStep, microV8, if_neg hm, if_pos ht, onNext_refused]
  · rw [runCommand_of_goto (t := b) (l := .c1 ⟨c, o, none, none⟩) hb
      (by simp only [microStep, microV8, if_neg hm, if_neg ht]), runCommand_application hb]

/-- `v2` to `v8` report the first illegal operand, or go on as `firstIllegal` says (R112). -/
theorem runCommand_v2 (c : Chan) (o : ConfigOperands) :
    runCommand (n + 22) (b.setCmd (some (.v2 c o))) = match firstIllegal b.cfg o with
      | some (kind, value) => .next (b.raiseError kind opConfigure value)
      | none => if o.transferCount = 0 then .refused .zeroTransferCount else .next (applyConfigure c o b) := by
  rw [runCommand_of_validateStep hb (.v2 c o) rfl, runCommand_of_validateStep hb (.v3 c o) rfl,
    runCommand_of_validateStep hb (.v4 c o) rfl, runCommand_of_validateStep hb (.v5 c o) rfl,
    runCommand_of_validateStep hb (.v6 c o) rfl, runCommand_of_validateStep hb (.v7 c o) rfl, runCommand_v8 hb]
  simp only [State.setCmd_cfg, decide_eq_true_eq, firstIllegal]
  split_ifs <;> rfl

end Configure

/-! ### Each command from its first label -/

section Commands

variable {s : State} (n : Nat) (hs : s.canIssue = true)
include hs

theorem runCommand_configure (o : ConfigOperands) :
    runCommand (n + 23) (s.setCmd (some (.v1 o))) = execConfigure o s := by
  rw [execConfigure, issuing_of_canIssue hs]
  exact runCommand_channelCommand hs rfl fun c => runCommand_v2 hs c o

theorem runCommand_translate (address size : Word) :
    runCommand (n + 1) (s.setCmd (some (.t1 address size))) = execTranslate address size s := by
  rw [execTranslate, issuing_of_canIssue hs]
  cases ht : translate s.cfg address size.toNat with
  | none => exact runCommand_of_abort hs (by simp [microStep, microT1, ht])
  | some offset => exact runCommand_of_finish hs (by simp [microStep, microT1, ht]) hs

theorem runCommand_mayIdle : runCommand (n + 1) (s.setCmd (some .m1)) = execMayIdle s := by
  rw [execMayIdle_next hs]
  exact runCommand_of_finish hs (by simp [microStep, microM1]) hs

/-- IDLE from the mainline runs to its answer, or to `w3`, where the mainline is held. -/
theorem runCommand_idle (ha : s.active = []) : runCommand (n + 2) (s.setCmd (some .w1)) = execIdle s := by
  by_cases hi : s.idleCnt.toNat = 1000
  · have hw1 : microStep .w1 (s.setCmd (some .w1)) = goto .w2 (s.setCmd (some .w1)) := by
      simp [microStep, microW1, hi]
    have hw2 : microStep .w2 (s.setCmd (some .w2)) = goto .w3 ((beginWait s).setCmd (some .w2)) := by
      simp [microStep, microW2, State.setCmd, beginWait, State.emit, ha]
    have hheld : ((beginWait s).setCmd (some .w3)).runningCmd = none := by
      simp [State.runningCmd, State.setCmd, ha]
    rw [execIdle_waits hs ha hi, runCommand_of_goto hs hw1, runCommand_of_goto hs hw2, runCommand_of_none hheld]
  · rw [execIdle_inhibited hs ha hi]
    exact runCommand_of_finish hs (by simp [microStep, microW1, hi]) hs

theorem runCommand_enable (channel : Word) :
    runCommand (n + 5) (s.setCmd (some (.e1 channel))) = execEnable channel s := by
  rw [execEnable, issuing_of_canIssue hs]
  refine runCommand_channelCommand hs (second := .e2) rfl fun c => ?_
  have he : (setEn c s).canIssue = true := hs
  rw [runCommand_of_goto (t := setEn c s) hs (by rw [setEn, State.setCmd_modSlot]; rfl)]
  cases hm : oneShot ((setEn c s).slot c).mode
  · simp only [hm]
    exact runCommand_of_finish he (by simp [microStep, microE3, hm]) he
  · rw [runCommand_of_goto (t := setEn c s) (l := .i1) he
      (by simp only [microStep, microE3, State.setCmd_slot, hm, if_true]), runCommand_i1 he]
    simp [hm]

theorem runCommand_disable (channel : Word) :
    runCommand (n + 6) (s.setCmd (some (.x1 channel))) = execDisable channel s := by
  rw [execDisable, issuing_of_canIssue hs]
  refine runCommand_channelCommand hs (second := .x2) rfl fun c => ?_
  have hx2 : (clearEn c s).canIssue = true := hs
  have hx3 : (clearHalf c (clearEn c s)).canIssue = true := hs
  rw [runCommand_of_goto (t := clearEn c s) hs (by rw [clearEn, State.setCmd_modSlot]; rfl),
    runCommand_of_goto (t := clearHalf c (clearEn c s)) hx2 (by rw [clearHalf, State.setCmd_modSlot]; rfl)]
  cases hm : oneShot ((clearHalf c (clearEn c s)).slot c).mode
  · simp only [hm]
    exact runCommand_of_finish hx3 (by simp [microStep, microX4, hm]) hx3
  · rw [runCommand_of_goto (t := clearHalf c (clearEn c s)) (l := .r1) hx3
      (by simp only [microStep, microX4, State.setCmd_slot, hm, if_true]), runCommand_r1 hx3]
    simp [hm]

theorem runCommand_start (channel : Word) :
    runCommand (n + 2) (s.setCmd (some (.s1 channel))) = execStart channel s := by
  rw [execStart, issuing_of_canIssue hs]
  exact runCommand_channelCommand hs (second := .s2) rfl fun c =>
    runCommand_of_finish hs (by rw [State.setCmd_emit]; rfl) hs

theorem runCommand_setPri (channel priority : Word) :
    runCommand (n + 3) (s.setCmd (some (.p1 channel priority))) = execSetPri channel priority s := by
  rw [execSetPri, issuing_of_canIssue hs]
  refine runCommand_channelCommand hs (second := fun c => .p2 c priority) rfl fun c => ?_
  cases hp : illegalPriority priority
  · rw [runCommand_of_goto (l := .p3 c priority) hs (by rw [microStep, microP2, hp]; rfl)]
    exact runCommand_of_finish (k := .p3 c priority) hs (by rw [setIpl, State.setCmd_modSlot]; rfl) hs
  · exact runCommand_of_abort hs (by simp [microStep, microP2, hp])

theorem runCommand_complete (channel : Word) :
    runCommand (n + 2) (s.setCmd (some (.f1 channel))) = execComplete channel s := by
  rw [execComplete, issuing_of_canIssue hs]
  exact runCommand_channelCommand hs (second := .f2) rfl fun c =>
    runCommand_of_finish hs (by rw [setIf, State.setCmd_modSlot]; rfl) hs

/-- Where a command may be issued, and is no IDLE in a callback, its micro-steps from its first label are the command.
The longest command, CONFIGURE, has 23 of them. -/
theorem runCommand_firstCont {i : Instr} (hi : i = .idle → s.active = []) :
    runCommand (n + 23) (s.setCmd (some (firstCont i))) = exec i s := by
  cases i with
  | configure o => exact runCommand_configure n hs o
  | translate address size => exact runCommand_translate _ hs address size
  | inhibit => exact (runCommand_i1 hs).trans (execInhibit_next hs).symm
  | release => exact (runCommand_r1 hs).trans (execRelease_next hs).symm
  | mayIdle => exact runCommand_mayIdle _ hs
  | idle => exact runCommand_idle _ hs (hi rfl)
  | enable channel => exact runCommand_enable _ hs channel
  | disable channel => exact runCommand_disable _ hs channel
  | start channel => exact runCommand_start _ hs channel
  | setPri channel priority => exact runCommand_setPri _ hs channel priority
  | complete channel => exact runCommand_complete _ hs channel

end Commands

/-! ### Where a command is refused -/

/-- Every command goes through `issuing`: where none may be issued it is refused. -/
theorem exec_of_not_canIssue {s : State} (hs : s.canIssue = false) (i : Instr) : exec i s = .refused .stepNotEnabled := by
  cases i <;>
    simp [exec, execConfigure, execTranslate, execInhibit, execRelease, execMayIdle, execIdle, execEnable, execDisable,
      execStart, execSetPri, execComplete, issuing, hs]

theorem issueCommand_of_not_canIssue {s : State} (hs : s.canIssue = false) (i : Instr) :
    issueCommand i s = .refused .stepNotEnabled := by
  simp [issueCommand, issuing, hs]

theorem issueCommand_idle_inCallback {s : State} (hs : s.canIssue = true) (ha : s.active ≠ []) :
    issueCommand .idle s = .refused .idleInCallback := by
  simp [issueCommand, issuing, hs, isIdle, State.inHandler, ha]

theorem issueCommand_next {s : State} (hs : s.canIssue = true) {i : Instr} (hi : i = .idle → s.active = []) :
    issueCommand i s = .next (s.setCmd (some (firstCont i))) := by
  have hn : (isIdle i && s.inHandler) = false := by
    simp only [Bool.and_eq_false_imp, isIdle_iff]
    intro h
    simp [State.inHandler, hi h]
  simp [issueCommand, issuing, hs, hn]

/-! ### The obligation -/

/-- Settles O8: both sides are refused alike where the command may not be issued, and else the run from the first label
is the whole command. -/
theorem wholeCommandIsItsMicroSteps : Obligations.WholeCommandIsItsMicroSteps := by
  intro i s n hn
  obtain ⟨m, rfl⟩ := Nat.exists_eq_add_of_le' hn
  cases hs : s.canIssue with
  | false => rw [exec_of_not_canIssue hs, issueCommand_of_not_canIssue hs, onNext_refused]
  | true =>
    by_cases hi : i = .idle → s.active = []
    · rw [issueCommand_next hs hi, onNext_next, runCommand_firstCont m hs hi]
    · obtain ⟨rfl, ha⟩ := Classical.not_imp.1 hi
      rw [issueCommand_idle_inCallback hs ha, onNext_refused]
      exact execIdle_inCallback hs ha

end Sys2Proof.Machine
/-! The packets of a command (R80 to R85): what decodes to a command is its encoding. -/

namespace Sys2Proof

theorem formatZ_eq_ok {i j : Instr} {ops : List Word} : formatZ i ops = .ok j ↔ ops = [] ∧ i = j := by
  cases ops <;> simp [formatZ]

theorem formatC_eq_ok {command : Word → Instr} {ops : List Word} {j : Instr} :
    formatC command ops = .ok j ↔ ∃ w, ops = [w] ∧ command w = j := by
  unfold formatC
  split <;> simp_all

theorem formatTwo_eq_ok {command : Word → Word → Instr} {ops : List Word} {j : Instr} :
    formatTwo command ops = .ok j ↔ ∃ v w, ops = [v, w] ∧ command v w = j := by
  unfold formatTwo
  split <;> simp_all

theorem formatCfg_eq_ok {ops : List Word} {j : Instr} :
    formatCfg ops = .ok j ↔ ∃ o, ops = (Instr.configure o).operandWords ∧ .configure o = j := by
  constructor
  · intro h
    unfold formatCfg at h
    split at h
    · exact ⟨_, rfl, Except.ok.inj h⟩
    · cases h
  · rintro ⟨o, rfl, rfl⟩
    rfl

/-- The operand words a command is read from are its own, after its own opcode (R81, R83). -/
theorem decodeOperands_eq_ok {op : Nat} {ops : List Word} {i : Instr} :
    decodeOperands op ops = .ok i ↔ op = i.opcode.toNat ∧ ops = i.operandWords := by
  constructor
  · intro h
    unfold decodeOperands at h
    split at h <;> simp only [formatCfg_eq_ok, formatTwo_eq_ok, formatC_eq_ok, formatZ_eq_ok, reduceCtorEq] at h
    case h_1 =>
      obtain ⟨o, rfl, rfl⟩ := h
      exact ⟨rfl, rfl⟩
    case h_2 | h_10 =>
      obtain ⟨v, w, rfl, rfl⟩ := h
      exact ⟨rfl, rfl⟩
    case h_7 | h_8 | h_9 | h_11 =>
      obtain ⟨w, rfl, rfl⟩ := h
      exact ⟨rfl, rfl⟩
    all_goals
      obtain ⟨rfl, rfl⟩ := h
      exact ⟨rfl, rfl⟩
  · rintro ⟨rfl, rfl⟩
    cases i <;> rfl

/-- A packet decodes to a command iff it is that command's encoding (R80, R85). -/
theorem decode_eq_ok_iff {packet : List Word} {i : Instr} : decode packet = .ok i ↔ packet = encode i := by
  constructor
  · intro h
    cases packet with
    | nil => cases h
    | cons header ops =>
      by_cases hr : headerReserved header = 0
      · rw [header_eq_of_reserved hr, decode_cons] at h
        obtain ⟨hop, rfl⟩ := decodeOperands_eq_ok.1 h
        rw [header_eq_of_reserved hr, BitVec.eq_of_toNat_eq hop]
        rfl
      · rw [decode, if_pos hr] at h
        cases h
  · rintro rfl
    rw [encode, decode_cons]
    exact decodeOperands_eq_ok.2 ⟨rfl, rfl⟩

end Sys2Proof

/-! What one step can do (R66): the entry it takes off the schedule, and the operation that entry names. -/

namespace Sys2Proof.Machine

/-- `Taken s e t`: from `s`, the schedule entry `e`, which is no reset, answers `t`. -/
inductive Taken (s : State) : Event → State → Prop where
  | completion (c : Chan) : Taken s (.completion c) (setIf c s)
  | enter (c : Chan) (htake : Takeable s c)
      (hmax : ∀ d, Takeable s d → (s.slot d).ipl.toNat ≤ (s.slot c).ipl.toNat) : Taken s (.enter c) (enterHandler c s)
  | micro {t : State} (k : Cont) (hk : s.runningCmd = some k) (hm : microStep k s = .next t) : Taken s .run t
  | dispatch {t : State} (hd : Handler) (below : List Handler) (ha : s.active = hd :: below) (hc : hd.cmd = none)
      (hm : dispatchStep hd.chan hd.phase s = .next t) : Taken s .run t
  | issue {t : State} (i : Instr) (hm : issueCommand i s = .next t) : Taken s (.issue (encode i)) t
  | command {t : State} (i : Instr) (hm : exec i s = .next t) : Taken s (.command (encode i)) t
  | callbackReturn {t : State} (hm : Machine.callbackReturn s = .next t) : Taken s .callbackReturn t
  | wake : Taken s .wake (wakeMainline s)

/-- What an entry that names a step answers is what that step does. -/
theorem taken_of_takeEvent {s t : State} {e : Event} (he : e ≠ .reset) (h : takeEvent e s = .next t) : Taken s e t := by
  cases e with
  | completion c =>
    cases h
    exact .completion c
  | enter c =>
    simp only [takeEvent] at h
    split at h
    · rename_i hc
      cases h
      obtain ⟨htake, hmax⟩ := (enterable_iff s c).1 hc
      exact .enter c htake hmax
    · cases h
  | run =>
    obtain ⟨k, hk, hm⟩ | ⟨hd, below, ha, hc, hm⟩ := contextStep_cases h
    · exact .micro k hk hm
    · exact .dispatch hd below ha hc hm
  | issue packet =>
    simp only [takeEvent] at h
    split at h
    · cases h
    · rename_i i hi
      obtain rfl := decode_eq_ok_iff.1 hi
      exact .issue i h
  | command packet =>
    simp only [takeEvent] at h
    split at h
    · cases h
    · rename_i i hi
      obtain rfl := decode_eq_ok_iff.1 hi
      exact .command i h
  | callbackReturn => exact .callbackReturn h
  | wake =>
    cases h
    exact .wake
  | reset => exact absurd rfl he

/-- A step takes the first entry of the schedule. -/
theorem taken_of_step {s t : State} {e : Event} {rest : List Event} (hs : s.schedule = e :: rest) (he : e ≠ .reset)
    (h : step s = .next t) : Taken { s with schedule := rest } e t :=
  taken_of_takeEvent he ((step_of_schedule hs).symm.trans h)

/-- An entry that names the reset answers the reset state. -/
theorem step_reset {s t : State} {rest : List Event} (hs : s.schedule = .reset :: rest) (h : step s = .next t) :
    t = resetBlock { s with schedule := rest } :=
  (Host.Outcome.next.inj ((step_of_schedule hs).symm.trans h)).symm

/-- Every step but a reset is a run of global steps of R66: of one, of those of a whole command, or (a wake that finds
nothing to wake) of none. -/
theorem Taken.globalSteps {s t : State} {e : Event} (h : Taken s e t) : Relation.ReflTransGen GlobalStep s t := by
  cases h with
  | completion c => exact .single (.completion c)
  | enter c htake hmax => exact .single (.entry c htake hmax)
  | micro k hk hm => exact .single (.command k hk hm)
  | dispatch hd below ha hc hm => exact .single (.dispatch hd below ha hc hm)
  | issue i hm => exact .single (issueCommand_globalStep hm)
  | command i hm =>
    rw [wholeCommandIsItsMicroSteps i s 23 le_rfl] at hm
    cases hi : issueCommand i s with
    | next u =>
      rw [hi, onNext_next] at hm
      exact (runCommand_globalSteps hm).head (issueCommand_globalStep hi)
    | fault => simp [hi] at hm
    | refused => simp [hi] at hm
  | callbackReturn hm =>
    obtain ⟨hd, below, ha, hp, hc, rfl⟩ := callbackReturn_cases hm
    exact .single (.callbackReturn hd below ha hp hc)
  | wake =>
    unfold wakeMainline
    split
    · rename_i hw
      rw [Bool.and_eq_true] at hw
      refine .single (.wake hw.1 fun hp => ?_)
      simpa [State.wakeCondition, hp] using hw.2
    · exact .refl

end Sys2Proof.Machine
/-! O12, O11: the invariant. Each part of it is kept by each operation; every global step keeps it, hence every step. -/

namespace Sys2Proof.Machine

/-! ### The slots -/

/-- A micro-step whose earlier checks hold writes legal values (10_state.md section 2). -/
theorem slotWrite_keeps_legal {cfg : Config} {k : Cont} {c : Chan} {f : Slot → Slot} {x : Slot}
    (hk : ContLegal cfg k) (hw : slotWrite cfg k = some (c, f)) (hx : SlotLegal cfg x) : SlotLegal cfg (f x) := by
  obtain ⟨hreq, hsta, hstb, hipl⟩ := hx
  unfold slotWrite at hw
  split at hw
  case h_2 l =>
    cases hw
    exact ⟨hk, hsta, hstb, hipl⟩
  case h_9 l =>
    obtain ⟨a, ha, hw⟩ := Option.map_eq_some_iff.1 hw
    cases hw
    exact ⟨hreq, BufferAt_le (bufferOffset_eq_some.1 ha), hstb, hipl⟩
  case h_10 l =>
    obtain ⟨b, hb, hw⟩ := Option.map_eq_some_iff.1 hw
    cases hw
    exact ⟨hreq, hsta, BufferAt_le (bufferOffset_eq_some.1 hb), hipl⟩
  case h_15 l =>
    split at hw <;> cases hw
    exact ⟨hreq, hsta, hstb, hipl⟩
  case h_19 c p =>
    cases hw
    obtain ⟨hlow, hhigh⟩ := hk
    simp only [iplMin, iplMax] at hlow hhigh
    refine ⟨hreq, hsta, hstb, ?_⟩
    simp only [iplMin, BitVec.toNat_setWidth]
    omega
  case h_21 => cases hw
  all_goals
    cases hw
    exact ⟨hreq, hsta, hstb, hipl⟩

theorem microStep_keeps_slots {k : Cont} {s t : State} (h : microStep k s = .next t) (hk : ContLegal s.cfg k)
    (hs : ∀ c, SlotLegal s.cfg (s.slot c)) (d : Chan) : SlotLegal s.cfg (t.slot d) := by
  rw [microStep_slot h d]
  cases hw : slotWrite s.cfg k with
  | none => exact hs d
  | some p =>
    dsimp only
    split
    · exact slotWrite_keeps_legal hk hw (hs p.1)
    · exact hs d

/-- A write of one slot that keeps it legal keeps every slot legal. -/
theorem modSlot_keeps_legal {s : State} {k : Config} {c : Chan} {f : Slot → Slot} (hs : ∀ d, SlotLegal k (s.slot d))
    (hf : SlotLegal k (s.slot c) → SlotLegal k (f (s.slot c))) (d : Chan) : SlotLegal k ((s.modSlot c f).slot d) := by
  rw [State.slot_modSlot]
  split
  · exact hf (hs c)
  · exact hs d

/-! ### The counter -/

theorem microStep_keeps_counter {k : Cont} {s t : State} (h : microStep k s = .next t)
    (hs : idleBase ≤ s.idleCnt.toNat ∧ s.idleCnt.toNat ≤ idleMax) :
    idleBase ≤ t.idleCnt.toNat ∧ t.idleCnt.toNat ≤ idleMax := by
  rw [microStep_idleCnt h]
  unfold counterAfter
  split
  · exact raiseCounter_keeps_range _ s hs
  · exact lowerCounter_keeps_range _ s hs
  · exact hs

/-! ### The contexts -/

/-- The part of the invariant about `ACTIVE` (R50, R51, R215). -/
structure ActiveLegal (k : Config) (l : List Handler) : Prop where
  distinct : (l.map Handler.chan).Nodup
  levels : k.nestPolicy = .priority → l.Pairwise fun inner outer => outer.lvl.toNat < inner.lvl.toNat
  handlers : ∀ h ∈ l, HandlerLegal k h

/-- The part of the invariant about the mainline (R51, R52). -/
structure MainlineLegal (k : Config) (op : Option Cont) (hold : Bool) : Prop where
  cont : ∀ c, op = some c → ContLegal k c
  hold : hold = true → op = some .w3

/-- The invariant, part by part: the parameters, the counter, the slots, `ACTIVE`, the mainline. -/
theorem inv_iff (s : State) :
    Inv s ↔ s.cfg.Admissible ∧ (idleBase ≤ s.idleCnt.toNat ∧ s.idleCnt.toNat ≤ idleMax) ∧
      (∀ c, SlotLegal s.cfg (s.slot c)) ∧ ActiveLegal s.cfg s.active ∧ MainlineLegal s.cfg s.mainOp s.idleHold :=
  ⟨fun h => ⟨h.cfg, h.counter, h.slots, ⟨h.distinct, h.levels, h.handlers⟩, ⟨h.mainline, h.hold⟩⟩,
    fun ⟨hcfg, hcnt, hslots, ha, hm⟩ =>
      ⟨hcfg, hcnt, hslots, ha.distinct, ha.levels, ha.handlers, hm.cont, hm.hold⟩⟩

theorem ActiveLegal.nil (k : Config) : ActiveLegal k [] := ⟨by simp, by simp, by simp⟩

theorem ActiveLegal.tail {k : Config} {l : List Handler} (hl : ActiveLegal k l) : ActiveLegal k l.tail := by
  cases l with
  | nil => exact hl
  | cons h below => exact ⟨(List.nodup_cons.1 hl.distinct).2, fun hp => (List.pairwise_cons.1 (hl.levels hp)).2,
      fun g hg => hl.handlers g (List.mem_cons_of_mem h hg)⟩

/-- The innermost handler may go on in DISPATCH and in its command, as long as its entry stays legal. -/
theorem ActiveLegal.setHead {k : Config} {h h' : Handler} {below : List Handler} (hl : ActiveLegal k (h :: below))
    (hchan : h'.chan = h.chan) (hlvl : h'.lvl = h.lvl) (hh : HandlerLegal k h') : ActiveLegal k (h' :: below) where
  distinct := by simpa only [List.map_cons, hchan] using hl.distinct
  levels hp := by simpa only [List.pairwise_cons, hlvl] using hl.levels hp
  handlers := by
    rintro g (_ | ⟨_, hg⟩)
    · exact hh
    · exact hl.handlers g (List.mem_cons_of_mem h hg)

/-- R212, R214, R215: a takeable channel stands in no entry of `ACTIVE`, and under `priority` its level is above that of
the innermost handler, hence above all. -/
theorem ActiveLegal.enter {s : State} {c : Chan} (ha : ActiveLegal s.cfg s.active) (hc : Takeable s c)
    (hipl : iplMin ≤ (s.slot c).ipl.toNat) : ActiveLegal s.cfg (enterHandler c s).active := by
  obtain ⟨_, _, hnew, helig⟩ := hc
  rw [enterHandler_active]
  constructor
  · simpa [ha.distinct] using hnew
  · intro hp
    refine List.pairwise_cons.2 ⟨fun g hg => ?_, ha.levels hp⟩
    have hcur := helig hp
    have hlevels := ha.levels hp
    unfold State.curLevel at hcur
    cases hact : s.active with
    | nil => simp [hact] at hg
    | cons h below =>
      simp only [hact] at hcur hlevels hg
      rcases List.mem_cons.1 hg with rfl | hg
      · exact hcur
      · exact ((List.pairwise_cons.1 hlevels).1 g hg).trans hcur
  · rintro g (_ | ⟨_, hg⟩)
    · exact ⟨hipl, by simp, by simp, by simp⟩
    · exact ha.handlers g hg

/-! ### What each global step does to the contexts -/

/-- The command of the innermost context may be set to `l` if `l` is legal there. -/
theorem setCmd_keeps_active {s : State} {l : Option Cont} (ha : ActiveLegal s.cfg s.active)
    (hphase : ∀ h below, s.active = h :: below → l.isSome = true → h.phase = .callback)
    (hl : s.active ≠ [] → ∀ c, l = some c → ContLegal s.cfg c ∧ ¬ IdleCont c) :
    ActiveLegal s.cfg (s.setCmd l).active := by
  cases hact : s.active with
  | nil => simpa [State.setCmd_of_mainline hact, hact] using ActiveLegal.nil s.cfg
  | cons h below =>
    rw [State.setCmd_of_handler hact]
    rw [hact] at ha
    obtain ⟨hlvl, _, hlatched, _⟩ := ha.handlers h List.mem_cons_self
    exact ha.setHead rfl rfl ⟨hlvl, hphase h below hact, hlatched, hl (by simp [hact])⟩

/-- While a handler is active the mainline's continuation is not the one that is set (R68). -/
theorem setCmd_mainOp (s : State) (l : Option Cont) :
    (s.setCmd l).mainOp = if s.active = [] then l else s.mainOp := by
  cases hact : s.active <;> simp [State.setCmd, hact]

/-- The running command is legal, and in a handler it is none of IDLE and the handler waits for its callback. -/
theorem runningCmd_legal {s : State} {k : Cont} (hi : Inv s) (hk : s.runningCmd = some k) :
    ContLegal s.cfg k ∧ ∀ h below, s.active = h :: below → h.phase = .callback ∧ ¬ IdleCont k := by
  cases hact : s.active with
  | nil =>
    simp only [State.runningCmd, hact] at hk
    split at hk
    · cases hk
    · exact ⟨hi.mainline k hk, by simp⟩
  | cons h below =>
    rw [State.runningCmd_of_handler hact] at hk
    have hh := hi.handlers h (by simp [hact])
    obtain ⟨hlegal, hidle⟩ := hh.cmd k hk
    refine ⟨hlegal, fun g below' hg => ?_⟩
    obtain ⟨rfl, rfl⟩ := List.cons.inj hg
    exact ⟨hh.cmdPhase (by simp [hk]), hidle⟩

/-- A running command's mainline is not held. -/
theorem idleHold_of_runningCmd {s : State} {k : Cont} (hk : s.runningCmd = some k) (ha : s.active = []) :
    s.idleHold = false := by
  cases hh : s.idleHold
  · rfl
  · simp [State.runningCmd, ha, hh] at hk

theorem microStep_keeps_inv {k : Cont} {s t : State} (hi : Inv s) (hk : s.runningCmd = some k)
    (h : microStep k s = .next t) : Inv t := by
  obtain ⟨hlegal, hhandler⟩ := runningCmd_legal hi hk
  obtain ⟨hcfg, hcnt, hslots, hact, hmain⟩ := (inv_iff s).1 hi
  obtain ⟨l, hta, htm, htc, _, hl, hhold⟩ := microStep_context h
  rw [inv_iff, htc, hta, htm, setCmd_mainOp]
  refine ⟨hcfg, microStep_keeps_counter h hcnt, microStep_keeps_slots h hlegal hslots, ?_, ?_⟩
  · refine setCmd_keeps_active hact (fun g below hg _ => (hhandler g below hg).1) fun hne c hc => ?_
    obtain ⟨g, below, hg⟩ := List.exists_cons_of_ne_nil hne
    exact ⟨(hl c hc).1 hlegal, fun hidle => (hhandler g below hg).2 ((hl c hc).2 hidle)⟩
  · split
    · rename_i hnil
      refine ⟨fun c hc => (hl c hc).1 hlegal, fun ht => ?_⟩
      rcases hhold with hhold | ⟨_, hw3, _⟩
      · rw [hhold, idleHold_of_runningCmd hk hnil] at ht
        cases ht
      · exact hw3
    · rename_i hne
      obtain ⟨g, below, hg⟩ := List.exists_cons_of_ne_nil hne
      rcases hhold with hhold | ⟨rfl, _, _⟩
      · rw [hhold]
        exact hmain
      · exact absurd trivial (hhandler g below hg).2

/-- DISPATCH goes on to phase `p` of the innermost handler with the latch `f`. -/
theorem ActiveLegal.setPhase {k : Config} {h : Handler} {below : List Handler} (hl : ActiveLegal k (h :: below))
    (hc : h.cmd = none) {p : Phase} {f : Option Bool} (hf : f.isSome = true ↔ p ≠ .d1 ∧ p ≠ .d2) :
    ActiveLegal k ({ h with phase := p, firstHalf := f } :: below) :=
  hl.setHead rfl rfl ⟨(hl.handlers h List.mem_cons_self).lvl, by simp [hc], hf, by simp [hc]⟩

theorem dispatchStep_keeps_inv {h : Handler} {below : List Handler} {s t : State} (hi : Inv s)
    (ha : s.active = h :: below) (hc : h.cmd = none) (hstep : dispatchStep h.chan h.phase s = .next t) : Inv t := by
  obtain ⟨hcfg, hcnt, hslots, hact, hmain⟩ := (inv_iff s).1 hi
  rw [ha] at hact
  have hlatched := (hact.handlers h List.mem_cons_self).latched
  rw [inv_iff]
  obtain ⟨hp, rfl⟩ | ⟨_, _, rfl⟩ | ⟨hp, rfl⟩ | ⟨_, rfl⟩ := dispatchStep_cases hstep
  · rw [State.setPhase_of_handler (s := clearIf h.chan s) ha]
    have hslots' : ∀ c, SlotLegal s.cfg ((clearIf h.chan s).slot c) :=
      modSlot_keeps_legal hslots fun hx => ⟨hx.req, hx.sta, hx.stb, hx.ipl⟩
    refine ⟨hcfg, hcnt, hslots', hact.setPhase hc ?_, hmain⟩
    simpa [hp] using hlatched
  · rw [State.latchFirstHalf_of_handler (by simpa using ha), State.setPhase_of_handler rfl]
    exact ⟨hcfg, hcnt, hslots, hact.setPhase hc (by simp), hmain⟩
  · rw [State.setPhase_of_handler (s := toggleHalf h.chan s) ha]
    have hslots' : ∀ c, SlotLegal s.cfg ((toggleHalf h.chan s).slot c) :=
      modSlot_keeps_legal hslots fun hx => ⟨hx.req, hx.sta, hx.stb, hx.ipl⟩
    refine ⟨hcfg, hcnt, hslots', hact.setPhase hc ?_, hmain⟩
    simpa [hp] using hlatched
  · refine ⟨hcfg, hcnt, hslots, ?_, hmain⟩
    simpa [ha] using hact.tail

/-- A command's first micro-step has no check before it. -/
theorem contLegal_firstCont (k : Config) (i : Instr) : ContLegal k (firstCont i) := by cases i <;> trivial

theorem idleCont_firstCont {i : Instr} (h : IdleCont (firstCont i)) : i = .idle := by cases i <;> trivial

theorem issue_keeps_inv {i : Instr} {s : State} (hi : Inv s) (hmay : MayIssue s) (hidle : i = .idle → s.active = []) :
    Inv (s.setCmd (some (firstCont i))) := by
  obtain ⟨hcfg, hcnt, hslots, hact, hmain⟩ := (inv_iff s).1 hi
  simp only [inv_iff, State.setCmd_cfg, State.setCmd_idleCnt, State.setCmd_slot, State.setCmd_idleHold, setCmd_mainOp]
  refine ⟨hcfg, hcnt, hslots, setCmd_keeps_active hact ?_ ?_, ?_⟩
  · intro h below ha _
    obtain ⟨hnil, _⟩ | ⟨g, below', hg, hphase, _⟩ := hmay
    · simp [hnil] at ha
    · obtain ⟨rfl, rfl⟩ := List.cons.inj (hg.symm.trans ha)
      exact hphase
  · rintro hne c ⟨⟩
    exact ⟨contLegal_firstCont _ i, fun hc => hne (hidle (idleCont_firstCont hc))⟩
  · split
    · rename_i hnil
      refine ⟨?_, ?_⟩
      · rintro c ⟨⟩
        exact contLegal_firstCont _ i
      · obtain ⟨_, hhold, _⟩ | ⟨_, _, hg, _, _⟩ := hmay
        · simp [hhold]
        · simp [hnil] at hg
    · exact hmain

/-! ### Reset -/

theorem slot_resetWith (k : Config) (c : Chan) : (State.resetWith k).slot c = resetSlot k := by
  simp [State.slot, State.resetWith]

theorem inv_resetWith {k : Config} (hk : k.Admissible) : Inv (State.resetWith k) := by
  rw [inv_iff]
  refine ⟨hk, by simp [State.resetWith], fun c => ?_, ActiveLegal.nil k, ?_, ?_⟩
  case refine_2 | refine_3 => simp [State.resetWith]
  rw [slot_resetWith]
  exact ⟨hk.resetReq, hk.resetSta, hk.resetStb, hk.iplResetPos⟩

/-- The invariant does not read the schedule and the trace. -/
theorem inv_congr {s t : State} (hi : Inv s) (h : { s with schedule := t.schedule, trace := t.trace } = t) : Inv t := by
  rw [← h]
  exact ⟨hi.cfg, hi.counter, hi.slots, hi.distinct, hi.levels, hi.handlers, hi.mainline, hi.hold⟩

theorem resetBlock_keeps_inv {s : State} (hi : Inv s) : Inv (resetBlock s) := inv_congr (inv_resetWith hi.cfg) rfl

/-! ### Every step -/

/-- Every global step of R66 keeps the invariant. -/
theorem globalStep_keeps_inv {s t : State} (h : GlobalStep s t) (hi : Inv s) : Inv t := by
  cases h with
  | completion c =>
    exact { hi with slots := modSlot_keeps_legal hi.slots fun hx => ⟨hx.req, hx.sta, hx.stb, hx.ipl⟩ }
  | entry c htake _ =>
    obtain ⟨hcfg, hcnt, hslots, hact, hmain⟩ := (inv_iff s).1 hi
    exact (inv_iff _).2 ⟨hcfg, hcnt, hslots, hact.enter htake (hslots c).ipl, hmain⟩
  | command k hk hstep => exact microStep_keeps_inv hi hk hstep
  | dispatch h below ha hc hstep => exact dispatchStep_keeps_inv hi ha hc hstep
  | issue i hmay hidle => exact issue_keeps_inv hi hmay hidle
  | callbackReturn h below ha hphase hc =>
    obtain ⟨hcfg, hcnt, hslots, hact, hmain⟩ := (inv_iff s).1 hi
    rw [ha] at hact
    refine (inv_iff _).2 ⟨hcfg, hcnt, hslots, hact.setPhase hc ?_, hmain⟩
    simpa [hphase] using (hact.handlers h List.mem_cons_self).latched
  | wake _ _ => exact { hi with hold := by simp }
  | reset => exact resetBlock_keeps_inv hi

theorem globalSteps_keep_inv {s t : State} (h : Relation.ReflTransGen GlobalStep s t) (hi : Inv s) : Inv t := by
  induction h with
  | refl => exact hi
  | tail _ hstep ih => exact globalStep_keeps_inv hstep ih

/-- Settles O12: a step waits, resets, or is a run of global steps, each of which keeps the invariant. -/
theorem everyStepKeepsInvariant : Obligations.EveryStepKeepsInvariant := by
  intro s t hi h
  cases hs : s.schedule with
  | nil =>
    rw [step_of_nil hs] at h
    cases h
    exact hi
  | cons e rest =>
    have hi' : Inv { s with schedule := rest } := inv_congr hi rfl
    by_cases he : e = .reset
    · subst he
      rw [step_reset hs h]
      exact resetBlock_keeps_inv hi'
    · exact globalSteps_keep_inv (taken_of_step hs he h).globalSteps hi'

/-- R7: the default column is admissible. -/
theorem admissible_of_default : Config.default.Admissible := by
  constructor <;> decide

/-- Settles O11: with admissible parameters every reset value is legal, and the block has no handler and no hold. -/
theorem invariantHoldsAfterReset : Obligations.InvariantHoldsAfterReset :=
  ⟨fun _ => inv_resetWith, inv_resetWith admissible_of_default⟩

end Sys2Proof.Machine
/-! O47 to O51, O57, O55: who writes the flags of a slot (R33 to R37). What a step does to them is said once, by the
entry it takes; each obligation reads off the writers of one flag. -/

namespace Sys2Proof.Machine

/-- Two slots agree on `EN`, `HALF`, `IPL`, `IE` and `IF`. -/
structure SameFlags (x y : Slot) : Prop where
  en : y.en = x.en
  half : y.half = x.half
  ipl : y.ipl = x.ipl
  ie : y.ie = x.ie
  ifFlag : y.ifFlag = x.ifFlag

/-- `FlagWrite s c e y`: the entry `e`, taken in `s`, leaves `y` in slot `c`, and by that operation. -/
inductive FlagWrite (s : State) (c : Chan) : Event → Slot → Prop where
  | same {e : Event} {y : Slot} (h : SameFlags (s.slot c) y) : FlagWrite s c e y
  | completion : FlagWrite s c (.completion c) { s.slot c with ifFlag := true }
  | configure {y : Slot} (o : ConfigOperands) (ho : o.channel.toNat = c.val) (hen : y.en = false)
      (hhalf : y.half = (s.slot c).half) (hipl : y.ipl = (s.slot c).ipl)
      (hif : y.ifFlag = (s.slot c).ifFlag ∨ o.callback = cbNone ∧ y.ifFlag = false) :
      FlagWrite s c (.command (encode (.configure o))) y
  | enable (w : Word) (hw : w.toNat = c.val) :
      FlagWrite s c (.command (encode (.enable w))) { s.slot c with en := true }
  | disable (w : Word) (hw : w.toNat = c.val) :
      FlagWrite s c (.command (encode (.disable w))) { s.slot c with en := false, half := false }
  | setPri (w p : Word) (hw : w.toNat = c.val) :
      FlagWrite s c (.command (encode (.setPri w p))) { s.slot c with ipl := p.setWidth 3 }
  | complete (w : Word) (hw : w.toNat = c.val) :
      FlagWrite s c (.command (encode (.complete w))) { s.slot c with ifFlag := true }
  | c1 (l : ConfigLocals) (hk : s.runningCmd = some (.c1 l)) (hl : l.chan = c) :
      FlagWrite s c .run { s.slot c with en := false }
  | c14 (l : ConfigLocals) (hk : s.runningCmd = some (.c14 l)) (hl : l.chan = c) :
      FlagWrite s c .run { s.slot c with ie := l.ops.callback != cbNone }
  | c15 (l : ConfigLocals) (hk : s.runningCmd = some (.c15 l)) (hl : l.chan = c) (hcb : l.ops.callback = cbNone) :
      FlagWrite s c .run { s.slot c with ifFlag := false }
  | e2 (hk : s.runningCmd = some (.e2 c)) : FlagWrite s c .run { s.slot c with en := true }
  | x2 (hk : s.runningCmd = some (.x2 c)) : FlagWrite s c .run { s.slot c with en := false }
  | x3 (hk : s.runningCmd = some (.x3 c)) : FlagWrite s c .run { s.slot c with half := false }
  | p3 (p : Word) (hk : s.runningCmd = some (.p3 c p)) : FlagWrite s c .run { s.slot c with ipl := p.setWidth 3 }
  | f2 (hk : s.runningCmd = some (.f2 c)) : FlagWrite s c .run { s.slot c with ifFlag := true }
  | d1 (hd : Handler) (below : List Handler) (ha : s.active = hd :: below) (hc : hd.cmd = none) (hp : hd.phase = .d1)
      (hch : hd.chan = c) : FlagWrite s c .run { s.slot c with ifFlag := false }
  | d3 (hd : Handler) (below : List Handler) (ha : s.active = hd :: below) (hc : hd.cmd = none) (hp : hd.phase = .d3)
      (hch : hd.chan = c) : FlagWrite s c .run { s.slot c with half := !(s.slot c).half }

section

variable {s t : State} {c : Chan}

/-- A slot that is not written keeps its flags. -/
theorem FlagWrite.of_eq {e : Event} {y : Slot} (h : y = s.slot c) : FlagWrite s c e y := by
  subst h
  exact .same ⟨rfl, rfl, rfl, rfl, rfl⟩

theorem slotWrite_flags {k : Cont} {f : Slot → Slot} (hk : s.runningCmd = some k)
    (hw : slotWrite s.cfg k = some (c, f)) : FlagWrite s c .run (f (s.slot c)) := by
  unfold slotWrite at hw
  split at hw
  case h_1 l => cases hw; exact .c1 l hk rfl
  case h_9 | h_10 =>
    obtain ⟨_, _, hw⟩ := Option.map_eq_some_iff.1 hw
    cases hw
    exact .same ⟨rfl, rfl, rfl, rfl, rfl⟩
  case h_14 l => cases hw; exact .c14 l hk rfl
  case h_15 l =>
    split at hw <;> cases hw
    exact .c15 l hk rfl ‹_›
  case h_16 => cases hw; exact .e2 hk
  case h_17 => cases hw; exact .x2 hk
  case h_18 => cases hw; exact .x3 hk
  case h_19 p => cases hw; exact .p3 p hk
  case h_20 => cases hw; exact .f2 hk
  case h_21 => cases hw
  all_goals
    cases hw
    exact .same ⟨rfl, rfl, rfl, rfl, rfl⟩

theorem microStep_flags {k : Cont} (hk : s.runningCmd = some k) (h : microStep k s = .next t) :
    FlagWrite s c .run (t.slot c) := by
  rw [microStep_slot h c]
  cases hw : slotWrite s.cfg k with
  | none => exact .of_eq rfl
  | some p =>
    dsimp only
    split
    · rename_i hc
      subst hc
      exact slotWrite_flags hk hw
    · exact .of_eq rfl

theorem dispatchStep_flags {hd : Handler} {below : List Handler} (ha : s.active = hd :: below) (hc : hd.cmd = none)
    (h : dispatchStep hd.chan hd.phase s = .next t) : FlagWrite s c .run (t.slot c) := by
  obtain ⟨hp, rfl⟩ | ⟨_, _, rfl⟩ | ⟨hp, rfl⟩ | ⟨_, rfl⟩ := dispatchStep_cases h
  · rw [State.setPhase_slot, clearIf, State.slot_modSlot]
    split
    · rename_i hch
      subst hch
      exact .d1 hd below ha hc hp rfl
    · exact .of_eq rfl
  · exact .of_eq (by simp)
  · rw [State.setPhase_slot, toggleHalf, State.slot_modSlot]
    split
    · rename_i hch
      subst hch
      exact .d3 hd below ha hc hp rfl
    · exact .of_eq rfl
  · exact .of_eq rfl

theorem exec_flags {i : Instr} (h : exec i s = .next t) : FlagWrite s c (.command (encode i)) (t.slot c) := by
  obtain hsame | ⟨o, rfl, ho, hen, hhalf, hipl, hbundle⟩ | ⟨w, rfl, hw, ht⟩ | ⟨w, rfl, hw, ht⟩ | ⟨w, p, rfl, hw, ht⟩ |
    ⟨w, rfl, hw, ht⟩ := exec_slot h c
  · exact .of_eq hsame
  · refine .configure o ho hen hhalf hipl ?_
    obtain ⟨hif, _⟩ | ⟨_, _, hif⟩ := hbundle
    · exact .inl hif
    · split at hif
      · exact .inr ⟨‹_›, hif⟩
      · exact .inl hif
  · exact ht ▸ .enable w hw
  · exact ht ▸ .disable w hw
  · exact ht ▸ .setPri w p hw
  · exact ht ▸ .complete w hw

theorem Taken.flags {e : Event} (h : Taken s e t) (c : Chan) : FlagWrite s c e (t.slot c) := by
  cases h with
  | completion d =>
    rw [setIf, State.slot_modSlot]
    split
    · rename_i hc
      subst hc
      exact .completion
    · exact .of_eq rfl
  | enter => exact .of_eq rfl
  | micro k hk hm => exact microStep_flags hk hm
  | dispatch hd below ha hc hm => exact dispatchStep_flags ha hc hm
  | issue i hm =>
    obtain ⟨_, rfl⟩ := issueCommand_cases hm
    exact .of_eq (by simp)
  | command i hm => exact exec_flags hm
  | callbackReturn hm =>
    obtain ⟨_, _, _, _, _, rfl⟩ := callbackReturn_cases hm
    exact .of_eq rfl
  | wake => exact .of_eq (by simp)

end

/-- A step that takes an entry other than a reset writes the flags of slot `c` by that entry's operation. -/
theorem step_flags {s t : State} {e : Event} {rest : List Event} (hs : s.schedule = e :: rest) (he : e ≠ .reset)
    (h : step s = .next t) (c : Chan) : FlagWrite { s with schedule := rest } c e (t.slot c) :=
  (taken_of_step hs he h).flags c

/-- Settles O47: of the writers of a flag, only SETPRI and its `p3` write `IPL`. -/
theorem priorityWrittenOnlyBySetPri : Obligations.PriorityWrittenOnlyBySetPri := by
  intro s t e rest c hs he h hne
  have hw := step_flags hs he h c
  generalize t.slot c = y at hw hne
  cases hw with
  | setPri w p hw => exact .inl ⟨w, p, rfl, hw⟩
  | p3 p hk => exact .inr ⟨rfl, p, hk⟩
  | same hsame => exact absurd hsame.ipl hne
  | configure _ _ _ _ hipl => exact absurd hipl hne
  | _ => exact absurd rfl hne

/-- Settles O49: of the writers of a flag, only DISABLE, its `x3` and `d3` write `HALF`. -/
theorem halfWrittenOnlyByDispatchAndDisable : Obligations.HalfWrittenOnlyByDispatchAndDisable := by
  intro s t e rest c hs he h hne
  have hw := step_flags hs he h c
  generalize t.slot c = y at hw hne ⊢
  cases hw with
  | disable w hw => exact .inl ⟨w, rfl, hw, rfl⟩
  | x3 hk => exact .inr (.inl ⟨rfl, hk, rfl⟩)
  | d3 hd below ha hc hp hch => exact .inr (.inr ⟨rfl, hd, below, ha, hc, hp, hch⟩)
  | same hsame => exact absurd hsame.half hne
  | configure _ _ _ hhalf => exact absurd hhalf hne
  | _ => exact absurd rfl hne

/-- Settles O50: of the writers of a flag, only CONFIGURE and its `c14` write `IE`. -/
theorem maskWrittenOnlyByConfigure : Obligations.MaskWrittenOnlyByConfigure := by
  intro s t e rest c hs he h hne
  have hw := step_flags hs he h c
  generalize t.slot c = y at hw hne
  cases hw with
  | configure o ho => exact .inl ⟨o, rfl, ho⟩
  | c14 l hk hl => exact .inr ⟨rfl, l, hk, hl⟩
  | same hsame => exact absurd hsame.ie hne
  | _ => exact absurd rfl hne

/-- Settles O48: of the writers of a flag, only ENABLE and its `e2` set `EN`, and a reset leaves it clear. -/
theorem enableBitSetOnlyByEnable : Obligations.EnableBitSetOnlyByEnable := by
  intro s t e rest c hs h hbefore hafter
  by_cases he : e = .reset
  · subst he
    rw [step_reset hs h, show (resetBlock { s with schedule := rest }).slot c = resetSlot s.cfg from
      slot_resetWith s.cfg c] at hafter
    cases hafter
  have hne : (t.slot c).en ≠ (s.slot c).en := by simp [hbefore, hafter]
  have hw := step_flags hs he h c
  generalize t.slot c = y at hw hafter hne
  cases hw with
  | enable w hw => exact .inl ⟨w, rfl, hw⟩
  | e2 hk => exact .inr ⟨rfl, hk⟩
  | configure _ _ hen => exact absurd (hen.symm.trans hafter) Bool.false_ne_true
  | disable | x2 | c1 => cases hafter
  | same hsame => exact absurd hsame.en hne
  | _ => exact absurd rfl hne

/-- Settles O57: of the writers of a flag, only DISABLE, CONFIGURE and their `x2` and `c1` clear `EN`. -/
theorem enableBitClearedOnlyByDisableAndConfigure : Obligations.EnableBitClearedOnlyByDisableAndConfigure := by
  intro s t e rest c hs he h hbefore hafter
  have hne : (t.slot c).en ≠ (s.slot c).en := by simp [hbefore, hafter]
  have hw := step_flags hs he h c
  generalize t.slot c = y at hw hafter hne
  cases hw with
  | disable w hw => exact .inl ⟨w, rfl, hw⟩
  | x2 hk => exact .inr (.inl ⟨rfl, hk⟩)
  | configure o ho => exact .inr (.inr (.inl ⟨o, rfl, ho⟩))
  | c1 l hk hl => exact .inr (.inr (.inr ⟨rfl, l, hk, hl⟩))
  | enable | e2 => cases hafter
  | same hsame => exact absurd hsame.en hne
  | _ => exact absurd rfl hne

/-- Settles O51: of the writers of a flag, only a completion event, COMPLETE and its `f2` set `IF`; only a CONFIGURE
without callback, its `c15` and `d1` clear it. -/
theorem pendingFlagWriters : Obligations.PendingFlagWriters := by
  intro s t e rest c hs he h
  have hw := step_flags hs he h c
  generalize t.slot c = y at hw ⊢
  constructor
  · intro hbefore hafter
    have hne : y.ifFlag ≠ (s.slot c).ifFlag := by simp [hbefore, hafter]
    cases hw with
    | completion => exact .inl rfl
    | complete w hw => exact .inr (.inl ⟨w, rfl, hw⟩)
    | f2 hk => exact .inr (.inr ⟨rfl, hk⟩)
    | configure o _ _ _ _ hif =>
      obtain hif | ⟨_, hif⟩ := hif
      · exact absurd hif hne
      · exact absurd (hif.symm.trans hafter) Bool.false_ne_true
    | c15 | d1 => cases hafter
    | same hsame => exact absurd hsame.ifFlag hne
    | _ => exact absurd rfl hne
  · intro hbefore hafter
    have hne : y.ifFlag ≠ (s.slot c).ifFlag := by simp [hbefore, hafter]
    cases hw with
    | configure o ho _ _ _ hif =>
      obtain hif | ⟨hcb, _⟩ := hif
      · exact absurd hif hne
      · exact .inl ⟨o, rfl, ho, hcb⟩
    | c15 l hk hl hcb => exact .inr (.inl ⟨rfl, l, hk, hl, hcb⟩)
    | d1 hd below ha hc hp hch => exact .inr (.inr ⟨rfl, hd, below, ha, hc, hp, hch⟩)
    | completion | complete | f2 => cases hafter
    | same hsame => exact absurd hsame.ifFlag hne
    | _ => exact absurd rfl hne

/-- Settles O55: of the whole commands only CONFIGURE writes `IE` or `CB`, and it writes both or neither. -/
theorem wholeCommandKeepsMaskMatching : Obligations.WholeCommandKeepsMaskMatching := by
  intro i s t hs h c
  obtain hsame | ⟨o, _, _, _, _, _, hbundle⟩ | ⟨_, _, _, ht⟩ | ⟨_, _, _, ht⟩ | ⟨_, _, _, _, ht⟩ | ⟨_, _, _, ht⟩ :=
    exec_slot h c
  · rw [hsame]
    exact hs c
  · obtain ⟨_, hie, hcb⟩ | ⟨hcb, hie, _⟩ := hbundle
    · rw [hie, hcb]
      exact hs c
    · rw [hie, hcb, bne_iff_ne]
  all_goals
    rw [ht]
    exact hs c

end Sys2Proof.Machine
/-! O52: who writes the counter (R40, R141, R142, R147). -/

namespace Sys2Proof.Machine

/-- `CounterWrite s e v`: the entry `e`, taken in `s`, leaves `v` in the counter, and by that operation. -/
inductive CounterWrite (s : State) : Event → Word → Prop where
  | same {e : Event} : CounterWrite s e s.idleCnt
  | inhibit {e : Event} (he : e = .command (encode .inhibit) ∨ ∃ w, e = .command (encode (.enable w))) :
      CounterWrite s e (raiseCounter s.idleCnt s).idleCnt
  | release {e : Event} (he : e = .command (encode .release) ∨ ∃ w, e = .command (encode (.disable w))) :
      CounterWrite s e (lowerCounter s.idleCnt s).idleCnt
  | i2 (v : Word) (hk : s.runningCmd = some (.i2 v)) : CounterWrite s .run (raiseCounter v s).idleCnt
  | r2 (v : Word) (hk : s.runningCmd = some (.r2 v)) : CounterWrite s .run (lowerCounter v s).idleCnt

theorem microStep_counterWrite {k : Cont} {s t : State} (hk : s.runningCmd = some k) (h : microStep k s = .next t) :
    CounterWrite s .run t.idleCnt := by
  rw [microStep_idleCnt h]
  unfold counterAfter
  split
  · exact .i2 _ hk
  · exact .r2 _ hk
  · exact .same

theorem exec_counterWrite {i : Instr} {s t : State} (h : exec i s = .next t) :
    CounterWrite s (.command (encode i)) t.idleCnt := by
  obtain ht | ⟨hi, ht⟩ | ⟨hi, ht⟩ := exec_idleCnt h <;> rw [ht]
  · exact .same
  · refine .inhibit ?_
    obtain rfl | ⟨w, rfl⟩ := hi
    · exact .inl rfl
    · exact .inr ⟨w, rfl⟩
  · refine .release ?_
    obtain rfl | ⟨w, rfl⟩ := hi
    · exact .inl rfl
    · exact .inr ⟨w, rfl⟩

theorem dispatchStep_idleCnt {c : Chan} {p : Phase} {s t : State} (h : dispatchStep c p s = .next t) :
    t.idleCnt = s.idleCnt := by
  obtain ⟨_, rfl⟩ | ⟨_, _, rfl⟩ | ⟨_, rfl⟩ | ⟨_, rfl⟩ := dispatchStep_cases h <;> simp

theorem Taken.counterWrite {s t : State} {e : Event} (h : Taken s e t) : CounterWrite s e t.idleCnt := by
  cases h with
  | completion c => exact .same
  | enter c => exact .same
  | micro k hk hm => exact microStep_counterWrite hk hm
  | dispatch hd below ha hc hm => exact dispatchStep_idleCnt hm ▸ .same
  | issue i hm =>
    obtain ⟨_, rfl⟩ := issueCommand_cases hm
    exact State.setCmd_idleCnt s _ ▸ .same
  | command i hm => exact exec_counterWrite hm
  | callbackReturn hm =>
    obtain ⟨_, _, _, _, _, rfl⟩ := callbackReturn_cases hm
    exact .same
  | wake => exact wakeMainline_idleCnt s ▸ .same

/-- R141: the write of INHIBIT from a value below the ceiling is that value plus 1, whatever the counter holds. -/
theorem raiseCounter_toNat {v : Word} (s : State) (hlow : 1000 ≤ v.toNat) (hhigh : v.toNat ≤ 1999) :
    (raiseCounter v s).idleCnt.toNat = v.toNat + 1 := by
  rw [raiseCounter, if_pos ⟨hlow, by simp only [idleMax]; omega⟩]
  have hone : (1 : Word).toNat = 1 := rfl
  exact BitVec.toNat_add_of_lt (y := 1) (by omega)

/-- R142: the write of RELEASE from a value above the floor is that value less 1, whatever the counter holds. -/
theorem lowerCounter_toNat {v : Word} (s : State) (hlow : 1001 ≤ v.toNat) (hhigh : v.toNat ≤ 2000) :
    (lowerCounter v s).idleCnt.toNat + 1 = v.toNat := by
  rw [lowerCounter, if_pos ⟨hhigh, hlow⟩]
  change (v - 1#16).toNat + 1 = v.toNat
  rw [BitVec.toNat_sub_of_le (by rw [BitVec.le_def, BitVec.toNat_ofNat]; omega)]
  simp only [BitVec.toNat_ofNat]
  omega

/-- Settles O52: every write of the counter is that of INHIBIT or of RELEASE, whole or at `i2` or `r2`, and the value
these two write is set by the value read. -/
theorem counterWrittenOnlyByInhibitAndRelease : Obligations.CounterWrittenOnlyByInhibitAndRelease := by
  intro s t e rest hs he h
  constructor
  · intro hne
    have hw := (taken_of_step hs he h).counterWrite
    generalize t.idleCnt = v at hw hne ⊢
    cases hw with
    | same => exact absurd rfl hne
    | inhibit hi => exact .inl ⟨hi, (raiseCounter_changes hne).2.2⟩
    | release hr => exact .inr (.inl ⟨hr, (lowerCounter_changes hne).2.2⟩)
    | i2 v hk => exact .inr (.inr (.inl ⟨rfl, v, hk, raiseCounter_changes hne⟩))
    | r2 v hk => exact .inr (.inr (.inr ⟨rfl, v, hk, lowerCounter_changes hne⟩))
  · rintro v rfl
    refine ⟨fun hk hlow hhigh => ?_, fun hk hlow hhigh => ?_⟩ <;> rw [step_run_of_cmd hs hk] at h <;>
      rw [microStep_idleCnt h]
    · exact raiseCounter_toNat _ hlow hhigh
    · exact lowerCounter_toNat _ hlow hhigh

end Sys2Proof.Machine

/-! O54: which operation emits which output (R56). -/

namespace Sys2Proof.Machine

/-- From `s` to `t` outputs are only added, and each of them has the property `p`. -/
def Emits (p : Output → Prop) (s t : State) : Prop := ∃ out, t.trace = out ++ s.trace ∧ ∀ o ∈ out, p o

theorem Emits.mono {p q : Output → Prop} {s t : State} (h : Emits p s t) (hpq : ∀ o, p o → q o) : Emits q s t := by
  obtain ⟨out, ht, hout⟩ := h
  exact ⟨out, ht, fun o ho => hpq o (hout o ho)⟩

theorem emits_of_trace_eq {p : Output → Prop} {s t : State} (h : t.trace = s.trace) : Emits p s t :=
  ⟨[], h, by simp⟩

theorem emits_setCmd {p : Output → Prop} {s u : State} {l : Option Cont} : Emits p s (u.setCmd l) ↔ Emits p s u := by
  simp only [Emits, State.setCmd_trace]

/-- What a command may emit: reports and responses; a pulse on `FORCE[c]` where `force c`; `IDLE_WAIT` where `wait`. -/
def CommandOutput (force : Chan → Prop) (wait : Prop) : Output → Prop
  | .rsp _ => True
  | .err _ _ _ => True
  | .cbCall _ _ _ => False
  | .force c => force c
  | .idleWait => wait

section

variable {force : Chan → Prop} {wait : Prop} {s u : State} (hu : u.trace = s.trace)
include hu

theorem emits_respond (v : Option Word) : Emits (CommandOutput force wait) s (u.respond v) :=
  ⟨[.rsp (.ok v)], by simp [hu], by simp [CommandOutput]⟩

theorem emits_raiseError (kind : ErrorKind) (op : BitVec 4) (v : Word) :
    Emits (CommandOutput force wait) s (u.raiseError kind op v) :=
  ⟨[.rsp .aborted, .err kind op v], by simp [hu], by simp [CommandOutput]⟩

end

theorem emits_force {force : Chan → Prop} {wait : Prop} {s : State} {c : Chan} (hc : force c) :
    Emits (CommandOutput force wait) s ((s.emit (.force c)).respond none) :=
  ⟨[.rsp (.ok none), .force c], by simp, by simpa [CommandOutput] using hc⟩

theorem emits_idleWait {force : Chan → Prop} {wait : Prop} {s : State} (hw : wait) :
    Emits (CommandOutput force wait) s (beginWait s) :=
  ⟨[.idleWait], by simp, by simpa [CommandOutput] using hw⟩

/-- Of all micro-steps only `s2` pulses `FORCE`, and only `w2` emits `IDLE_WAIT`. -/
theorem microStep_emits {k : Cont} {s t : State} (h : microStep k s = .next t) :
    Emits (CommandOutput (fun c => k = .s2 c) (k = .w2)) s t := by
  cases k <;>
    simp only [microStep, microV1, microV2, microV3, microV4, microV5, microV6, microV7, microV8, validateStep, microC1,
      microC2, microC3, microC4, microC5, microC6, microC7, microC8, microC9, microC10, microC11, microC12, microC13,
      microC14, microC15, microT1, microI1, microI2, microR1, microR2, microM1, microW1, microW2, microW3, microE1,
      microE2, microE3, microX1, microX2, microX3, microX4, microS1, microS2, microP1, microP2, microP3, microF1, microF2,
      goto, finish, abort] at h
  case s2 c =>
    cases h
    exact emits_setCmd.2 (emits_force rfl)
  case w2 =>
    cases h
    exact emits_setCmd.2 (emits_idleWait rfl)
  case p3 | f2 =>
    cases h
    exact emits_setCmd.2 (emits_respond rfl _)
  case c15 l =>
    cases h
    exact emits_setCmd.2 (emits_respond (by split <;> rfl) _)
  all_goals
    repeat' split at h
    all_goals cases h
    all_goals simp [emits_setCmd, emits_of_trace_eq, emits_respond, emits_raiseError]

/-- Of all whole commands only START pulses `FORCE`, and only IDLE emits `IDLE_WAIT`. -/
theorem exec_emits {i : Instr} {s t : State} (h : exec i s = .next t) :
    Emits (CommandOutput (fun c => ∃ w, i = .start w ∧ w.toNat = c.val) (i = .idle)) s t := by
  cases i <;> simp only [exec] at h
  case configure o =>
    obtain ⟨_, ⟨_, rfl⟩ | ⟨c, _, ⟨_, _, _, rfl⟩ | ⟨_, _, rfl⟩⟩⟩ := execConfigure_cases h
    · exact emits_raiseError rfl _ _ _
    · exact emits_raiseError rfl _ _ _
    · obtain ⟨_, h⟩ | ⟨_, _, ⟨_, h⟩ | ⟨_, _, h⟩⟩ := applyConfigure_cases c o s <;> rw [h]
      · exact emits_raiseError rfl _ _ _
      · exact emits_raiseError rfl _ _ _
      · exact emits_respond rfl _
  case translate =>
    obtain ⟨_, ⟨_, rfl⟩ | ⟨_, _, rfl⟩⟩ := execTranslate_cases h
    · exact emits_raiseError rfl _ _ _
    · exact emits_respond rfl _
  case idle =>
    obtain ⟨_, _, ⟨_, rfl⟩ | ⟨_, rfl⟩⟩ := execIdle_cases h
    · exact emits_respond rfl _
    · exact emits_setCmd.2 (emits_idleWait rfl)
  case start w =>
    obtain ⟨_, ⟨_, rfl⟩ | ⟨c, hw, rfl⟩⟩ := execStart_cases h
    · exact emits_raiseError rfl _ _ _
    · exact emits_force ⟨w, rfl, hw⟩
  case enable =>
    obtain ⟨_, ⟨_, rfl⟩ | ⟨_, _, rfl⟩⟩ := execEnable_cases h
    · exact emits_raiseError rfl _ _ _
    · exact emits_respond (by split <;> simp) _
  case disable =>
    obtain ⟨_, ⟨_, rfl⟩ | ⟨_, _, rfl⟩⟩ := execDisable_cases h
    · exact emits_raiseError rfl _ _ _
    · exact emits_respond (by split <;> simp) _
  case setPri =>
    obtain ⟨_, ⟨_, rfl⟩ | ⟨_, _, ⟨_, rfl⟩ | ⟨_, rfl⟩⟩⟩ := execSetPri_cases h
    · exact emits_raiseError rfl _ _ _
    · exact emits_raiseError rfl _ _ _
    · exact emits_respond rfl _
  case complete =>
    obtain ⟨_, ⟨_, rfl⟩ | ⟨_, _, rfl⟩⟩ := execComplete_cases h
    · exact emits_raiseError rfl _ _ _
    · exact emits_respond rfl _
  all_goals
    obtain ⟨_, h⟩ := issuing_eq_next.1 h
    cases h
    exact emits_respond (by simp) _

/-- The operation that emits each output, as the entry `e` taken in `s` (R56). -/
def StepOutput (s : State) (e : Event) : Output → Prop
  | .rsp _ => (∃ i, e = .command (encode i)) ∨ (e = .run ∧ s.runningCmd ≠ none)
  | .err _ _ _ => (∃ i, e = .command (encode i)) ∨ (e = .run ∧ s.runningCmd ≠ none)
  | .cbCall handle c f => e = .run ∧ ∃ h below, s.active = h :: below ∧ h.cmd = none ∧ h.phase = .d2 ∧ h.chan = c ∧
      handle = (s.slot c).cb ∧ f = !(s.slot c).half
  | .force c => (∃ w, e = .command (encode (.start w)) ∧ w.toNat = c.val) ∨ (e = .run ∧ s.runningCmd = some (.s2 c))
  | .idleWait => e = .command (encode .idle) ∨ (e = .run ∧ s.runningCmd = some .w2)

/-- A step of DISPATCH emits nothing but the `CB_CALL` of `d2` (R182, R187). -/
theorem dispatchStep_emits {hd : Handler} {below : List Handler} {s t : State} (ha : s.active = hd :: below)
    (hc : hd.cmd = none) (h : dispatchStep hd.chan hd.phase s = .next t) : Emits (StepOutput s .run) s t := by
  obtain ⟨_, rfl⟩ | ⟨hp, _, rfl⟩ | ⟨_, rfl⟩ | ⟨_, rfl⟩ := dispatchStep_cases h
  · exact emits_of_trace_eq (by simp)
  · refine ⟨[.cbCall (s.slot hd.chan).cb hd.chan (!(s.slot hd.chan).half)], by simp, fun o ho => ?_⟩
    rw [List.mem_singleton.1 ho]
    exact ⟨rfl, hd, below, ha, hc, hp, rfl, rfl, rfl⟩
  · exact emits_of_trace_eq (by simp)
  · exact emits_of_trace_eq rfl

theorem Taken.emits {s t : State} {e : Event} (h : Taken s e t) : Emits (StepOutput s e) s t := by
  cases h with
  | completion c => exact emits_of_trace_eq rfl
  | enter c => exact emits_of_trace_eq rfl
  | micro k hk hm =>
    refine (microStep_emits hm).mono fun o ho => ?_
    cases o with
    | rsp | err => exact .inr ⟨rfl, by simp [hk]⟩
    | cbCall => exact ho.elim
    | force c => exact .inr ⟨rfl, hk.trans (congrArg some ho)⟩
    | idleWait => exact .inr ⟨rfl, hk.trans (congrArg some ho)⟩
  | dispatch hd below ha hc hm => exact dispatchStep_emits ha hc hm
  | issue i hm =>
    obtain ⟨_, rfl⟩ := issueCommand_cases hm
    exact emits_of_trace_eq (by simp)
  | command i hm =>
    refine (exec_emits hm).mono fun o ho => ?_
    cases o with
    | rsp | err => exact .inl ⟨i, rfl⟩
    | cbCall => exact ho.elim
    | force c =>
      obtain ⟨w, rfl, hw⟩ := ho
      exact .inl ⟨w, rfl, hw⟩
    | idleWait => exact .inl (congrArg (fun j => Event.command (encode j)) ho)
  | callbackReturn hm =>
    obtain ⟨_, _, _, _, _, rfl⟩ := callbackReturn_cases hm
    exact emits_of_trace_eq rfl
  | wake => exact emits_of_trace_eq (by simp)

/-- Settles O54: a reset emits nothing, and every other step only what its operation names. -/
theorem outputsComeFromTheirOperations : Obligations.OutputsComeFromTheirOperations := by
  intro s t e rest hs h
  have hemits : Emits (StepOutput s e) s t := by
    by_cases he : e = .reset
    · subst he
      rw [step_reset hs h]
      exact emits_of_trace_eq rfl
    · exact (taken_of_step hs he h).emits
  obtain ⟨out, ht, hout⟩ := hemits
  exact ⟨out, ht, fun _ => hout _, fun _ _ _ => hout _, hout _, fun _ _ _ => hout _, fun _ => hout _⟩

end Sys2Proof.Machine

/-! O58, O59: who writes the idle hold and its bit (R52, R145; log entry 7), and `ACTIVE` (R50, R51, R68, R220). -/

namespace Sys2Proof.Machine

/-- IDLE begins its wait from `s`: whole, from the mainline with the counter at the baseline, or at its `w2`. -/
def BeginsWait (s : State) (e : Event) : Prop :=
  (e = .command (encode .idle) ∧ s.active = [] ∧ s.idleCnt.toNat = 1000) ∨ (e = .run ∧ s.runningCmd = some .w2)

/-- What a micro-step does to the hold and to the bit: nothing, but for `w2`. -/
theorem microStep_hold {k : Cont} {s t : State} (h : microStep k s = .next t) :
    (t.idleHold = s.idleHold ∧ t.enteredSinceWait = s.enteredSinceWait) ∨
      (k = .w2 ∧ t = (beginWait s).setCmd (some .w3)) := by
  by_cases hk : k = .w2
  · subst hk
    exact .inr ⟨rfl, (Host.Outcome.next.inj h).symm⟩
  · left
    obtain ⟨_, _, _, _, _, _, hhold⟩ := microStep_context h
    exact ⟨hhold.resolve_right fun hw => hk hw.1, (microStep_enteredSinceWait h).resolve_right fun hw => hk hw.1⟩

/-- What a step but a reset does to the hold and to the bit: it keeps both; or begins the wait; or lifts the hold, where
the wake condition holds (R145); or enters a handler, which sets the bit. -/
theorem Taken.hold {s t : State} {e : Event} (h : Taken s e t) :
    (t.idleHold = s.idleHold ∧ t.enteredSinceWait = s.enteredSinceWait) ∨
    (t.idleHold = true ∧ t.enteredSinceWait = false ∧ BeginsWait s e) ∨
    (t.enteredSinceWait = s.enteredSinceWait ∧ t.idleHold = false ∧ e = .wake ∧ s.wakeCondition = true) ∨
    (t.idleHold = s.idleHold ∧ t.enteredSinceWait = true ∧ ∃ c, e = .enter c) := by
  cases h with
  | completion c => exact .inl ⟨rfl, rfl⟩
  | enter c => exact .inr (.inr (.inr ⟨rfl, rfl, c, rfl⟩))
  | micro k hk hm =>
    obtain hsame | ⟨rfl, rfl⟩ := microStep_hold hm
    · exact .inl hsame
    · exact .inr (.inl ⟨by simp, by simp, .inr ⟨rfl, hk⟩⟩)
  | dispatch hd below ha hc hm =>
    left
    obtain ⟨_, rfl⟩ | ⟨_, _, rfl⟩ | ⟨_, rfl⟩ | ⟨_, rfl⟩ := dispatchStep_cases hm <;> simp
  | issue i hm =>
    obtain ⟨_, rfl⟩ := issueCommand_cases hm
    exact .inl ⟨by simp, by simp⟩
  | command i hm =>
    obtain ⟨_, _, hsame⟩ | ⟨rfl, ha, hi, rfl⟩ := exec_contexts hm
    · exact .inl hsame
    · exact .inr (.inl ⟨by simp, by simp, .inl ⟨rfl, ha, hi⟩⟩)
  | callbackReturn hm =>
    obtain ⟨_, _, _, _, _, rfl⟩ := callbackReturn_cases hm
    exact .inl ⟨rfl, rfl⟩
  | wake =>
    unfold wakeMainline
    split
    · rename_i hw
      exact .inr (.inr (.inl ⟨rfl, rfl, rfl, (Bool.and_eq_true_iff.1 hw).2⟩))
    · exact .inl ⟨rfl, rfl⟩

theorem wakeCondition_iff (s : State) :
    s.wakeCondition = true ↔ (s.cfg.wakePolicy = .onInterrupt → s.enteredSinceWait = true) := by
  unfold State.wakeCondition
  cases s.cfg.wakePolicy <;> simp

/-- Settles O58: of the four things a step can do to the hold and the bit, one sets the hold, one clears it, one clears
the bit, and one sets it. -/
theorem idleHoldWriters : Obligations.IdleHoldWriters := by
  intro s t e rest hs he h
  obtain ⟨hhold, hbit⟩ | ⟨hhold, hbit, hwait⟩ | ⟨hbit, hhold, hwake, hcond⟩ | ⟨hhold, hbit, henter⟩ :=
    (taken_of_step hs he h).hold
  · simp +contextual [hhold, hbit]
  · refine ⟨fun _ _ => ⟨hbit, hwait⟩, by simp [hhold], fun _ _ => ⟨hhold, ?_⟩, by simp [hbit]⟩
    exact hwait.imp_left And.left
  · exact ⟨by simp [hhold], fun _ _ => ⟨hwake, (wakeCondition_iff _).1 hcond⟩, by simp +contextual [hbit],
      by simp +contextual [hbit]⟩
  · exact ⟨by simp +contextual [hhold], by simp +contextual [hhold], by simp [hbit], fun _ _ => henter⟩

/-- `ActiveWrite s e l`: the entry `e`, taken in `s`, leaves `l` as `ACTIVE`, and by that operation. -/
inductive ActiveWrite (s : State) : Event → List Handler → Prop where
  | enter (c : Chan) : ActiveWrite s (.enter c) (⟨c, (s.slot c).ipl, .d1, none, none⟩ :: s.active)
  | leave (h : Handler) (below : List Handler) (ha : s.active = h :: below) (hc : h.cmd = none) (hp : h.phase = .d4) :
      ActiveWrite s .run below
  | empty {e : Event} (ha : s.active = []) : ActiveWrite s e []
  | head {e : Event} (h h' : Handler) (below : List Handler) (ha : s.active = h :: below) (hchan : h'.chan = h.chan)
      (hlvl : h'.lvl = h.lvl) (hlatch : h'.firstHalf ≠ h.firstHalf → e = .run ∧ h.cmd = none ∧ h.phase = .d2)
      (hphase : h'.phase ≠ h.phase → h.cmd = none ∧ (e = .run ∨ e = .callbackReturn)) : ActiveWrite s e (h' :: below)

/-- Setting the running context's command keeps `ACTIVE` but for the innermost handler's command. -/
theorem activeWrite_setCmd (s : State) (e : Event) (l : Option Cont) : ActiveWrite s e (s.setCmd l).active := by
  cases ha : s.active with
  | nil =>
    rw [(State.setCmd_isNil s l).2 ha]
    exact .empty ha
  | cons h below =>
    rw [State.setCmd_of_handler ha]
    exact .head h _ below ha rfl rfl (absurd rfl) (absurd rfl)

theorem activeWrite_same (s : State) (e : Event) : ActiveWrite s e s.active := by
  cases ha : s.active with
  | nil => exact .empty ha
  | cons h below => exact .head h h below ha rfl rfl (absurd rfl) (absurd rfl)

theorem dispatchStep_activeWrite {hd : Handler} {below : List Handler} {s t : State} (ha : s.active = hd :: below)
    (hc : hd.cmd = none) (h : dispatchStep hd.chan hd.phase s = .next t) : ActiveWrite s .run t.active := by
  obtain ⟨_, rfl⟩ | ⟨hp, _, rfl⟩ | ⟨_, rfl⟩ | ⟨hp, rfl⟩ := dispatchStep_cases h
  · rw [State.setPhase_of_handler (s := clearIf hd.chan s) ha]
    exact .head hd _ below ha rfl rfl (absurd rfl) fun _ => ⟨hc, .inl rfl⟩
  · rw [State.latchFirstHalf_of_handler (by simpa using ha), State.setPhase_of_handler rfl]
    exact .head hd _ below ha rfl rfl (fun _ => ⟨rfl, hc, hp⟩) fun _ => ⟨hc, .inl rfl⟩
  · rw [State.setPhase_of_handler (s := toggleHalf hd.chan s) ha]
    exact .head hd _ below ha rfl rfl (absurd rfl) fun _ => ⟨hc, .inl rfl⟩
  · rw [leaveHandler_active, ha]
    exact .leave hd below ha hc hp

theorem Taken.activeWrite {s t : State} {e : Event} (h : Taken s e t) : ActiveWrite s e t.active := by
  cases h with
  | completion c => exact activeWrite_same s _
  | enter c => exact .enter c
  | micro k hk hm =>
    obtain ⟨l, hact, _⟩ := microStep_context hm
    exact hact ▸ activeWrite_setCmd s _ l
  | dispatch hd below ha hc hm => exact dispatchStep_activeWrite ha hc hm
  | issue i hm =>
    obtain ⟨_, rfl⟩ := issueCommand_cases hm
    exact activeWrite_setCmd s _ _
  | command i hm =>
    obtain ⟨hact, _⟩ | ⟨_, ha, _, rfl⟩ := exec_contexts hm
    · exact hact ▸ activeWrite_same s _
    · rw [(State.setCmd_isNil (beginWait s) _).2 ha]
      exact .empty ha
  | callbackReturn hm =>
    obtain ⟨hd, below, ha, _, hc, rfl⟩ := callbackReturn_cases hm
    exact .head hd _ below ha rfl rfl (absurd rfl) fun _ => ⟨hc, .inr rfl⟩
  | wake => exact wakeMainline_active s ▸ activeWrite_same s _

/-- Settles O59: the four ways to write `ACTIVE`. -/
theorem activeWriters : Obligations.ActiveWriters := by
  intro s t e rest hs he h
  have hw := (taken_of_step hs he h).activeWrite
  generalize t.active = l at hw ⊢
  cases hw with
  | enter c => exact .inl ⟨c, rfl, rfl⟩
  | leave h _ ha hc hp => exact .inr (.inl ⟨h, rfl, ha, hc, hp⟩)
  | empty ha => exact .inr (.inr (.inl ⟨ha, rfl⟩))
  | head h h' below ha hchan hlvl hlatch hphase =>
    exact .inr (.inr (.inr ⟨h, h', below, ha, rfl, hchan, hlvl, hlatch, hphase⟩))

end Sys2Proof.Machine
/-! O6, O26: the entries of the schedule that run a command, and those a held mainline refuses or takes. -/

namespace Sys2Proof.Machine

/-- A packet taken whole runs the command it decodes to (log entry 4). -/
theorem step_command {s : State} {packet : List Word} {rest : List Event} {i : Instr}
    (hs : s.schedule = .command packet :: rest) (hd : decode packet = .ok i) :
    step s = exec i { s with schedule := rest } := by
  rw [step_of_schedule hs]
  simp only [takeEvent, hd]

theorem decode_packetOfTableWord {nbits w : Nat} {i : Instr} (h : decodeTableWord nbits w = some i) :
    decode (packetOfTableWord nbits w) = .ok i := by
  unfold decodeTableWord at h
  split at h
  · rename_i hd
    rw [hd, Option.some.inj h]
  · cases h

/-- Settles O6: a placed word is a packet put first on the schedule, and taking it off again leaves the state. -/
theorem stepRunsDecodedCommand : Obligations.StepRunsDecodedCommand :=
  ⟨fun _ _ _ _ hs hd => step_command hs hd,
    fun s nbits w _ h => step_command (s := s.withFetchWord nbits w) rfl (decode_packetOfTableWord h)⟩

section

variable {s : State} (hhold : s.idleHold = true) (ha : s.active = [])
include hhold ha

theorem canIssue_of_held : s.canIssue = false := by
  simp [State.canIssue, ha, hhold]

theorem contextStep_of_held : contextStep s = .refused .stepNotEnabled := by
  simp [contextStep, State.runningCmd, ha, hhold]

end

/-- Settles O26: a held mainline refuses the context step and every command, and a completion event and a
handler's entry leave the hold alone. -/
theorem heldMainlineTakesNoStep : Obligations.HeldMainlineTakesNoStep := by
  intro s e rest hhold ha hs
  rw [step_of_schedule hs]
  have hissue : ({ s with schedule := rest } : State).canIssue = false := canIssue_of_held hhold ha
  refine ⟨?_, fun i hi => ?_, ?_, ?_⟩
  · rintro rfl
    exact contextStep_of_held (s := { s with schedule := rest }) hhold ha
  · have hdecode : decode (encode i) = .ok i := decode_eq_ok_iff.2 rfl
    obtain rfl | rfl := hi <;> simp only [takeEvent, hdecode]
    · exact exec_of_not_canIssue hissue i
    · exact issueCommand_of_not_canIssue hissue i
  · rintro c rfl
    exact ⟨_, rfl, by simp [setIf], hhold⟩
  · rintro c rfl htake hmax
    have henter : ({ s with schedule := rest } : State).enterable c = true := (enterable_iff _ c).2 ⟨htake, hmax⟩
    refine ⟨enterHandler c { s with schedule := rest }, ?_, by simp [ha], hhold⟩
    simp only [takeEvent, henter, if_true]

end Sys2Proof.Machine

/-! O20, O19: CONFIGURE's application phase on `CFG_OUT` (R45, R70), and the offsets it leaves (R29). -/

namespace Sys2Proof.Machine

/-- A micro-step that answers a next state shows its slot write on `CFG_OUT` at once (R70). -/
theorem step_run_slotWrite {s t : State} {k : Cont} {rest : List Event} {c : Chan} {f : Slot → Slot}
    (hs : s.schedule = .run :: rest) (hk : s.runningCmd = some k)
    (hm : microStep k { s with schedule := rest } = .next t) (hw : slotWrite s.cfg k = some (c, f)) :
    step s = .next t ∧ t.slot c = f (s.slot c) := by
  refine ⟨(step_run_of_cmd hs hk).trans hm, ?_⟩
  have hslot := microStep_slot hm c
  simp only [hw, if_true] at hslot
  exact hslot

/-- A buffer that translates has its offset in the 14 bits of an `Offset` (R29, R131). -/
theorem exists_bufferOffset {k : Config} {o : ConfigOperands} {address : Word} {n : Nat}
    (h : BufferAt k address (legalBytes k o) n) : ∃ x : Offset, bufferOffset k o address = some x ∧ x.toNat = n := by
  have hle := BufferAt_le h
  have hx : (BitVec.ofNat 14 n).toNat = n := Nat.mod_eq_of_lt (by simp only [windowSize] at hle; omega)
  exact ⟨BitVec.ofNat 14 n, bufferOffset_eq_some.2 (hx.symm ▸ h), hx⟩

theorem microC9_translated {s : State} {l : ConfigLocals} {a : Offset}
    (h : bufferOffset s.cfg l.ops l.ops.bufferA = some a) :
    microC9 l s = goto (.c10 { l with offA := some a }) (s.modSlot l.chan fun x => { x with sta := a }) := by
  simp only [microC9, h]

theorem microC10_translated {s : State} {l : ConfigLocals} {b : Offset}
    (h : bufferOffset s.cfg l.ops l.ops.bufferB = some b) :
    microC10 l s = goto (.c11 { l with offB := some b }) (s.modSlot l.chan fun x => { x with stb := b }) := by
  simp only [microC10, h]

/-- Settles O20: each of `c1` to `c12` answers the state with its slot write. -/
theorem configurationVisibleAtOnce : Obligations.ConfigurationVisibleAtOnce := by
  intro s l rest hs hl
  refine ⟨fun hk => ?_, fun hk => ?_, fun hk => ?_, fun hk => ?_, fun hk => ?_, fun hk => ?_, fun hk => ?_,
    fun hk => ?_, fun a hk ha => ?_, fun b hk hb => ?_, fun hk => ?_, fun hk => ?_⟩
  case refine_9 =>
    obtain ⟨x, hx, rfl⟩ := exists_bufferOffset ha
    obtain ⟨hstep, hslot⟩ := step_run_slotWrite hs hk (microC9_translated hx) (by rw [slotWrite, hx]; rfl)
    exact ⟨_, hstep, by simp only [State.cfgOut, hslot]⟩
  case refine_10 =>
    obtain ⟨x, hx, rfl⟩ := exists_bufferOffset hb
    obtain ⟨hstep, hslot⟩ := step_run_slotWrite hs hk (microC10_translated hx) (by rw [slotWrite, hx]; rfl)
    exact ⟨_, hstep, by simp only [State.cfgOut, hslot]⟩
  all_goals
    obtain ⟨hstep, hslot⟩ := step_run_slotWrite hs hk rfl rfl
    refine ⟨_, hstep, ?_⟩
    simp only [State.cfgOut, hslot]
  · exact dataSizeCode_of hl.dataSize
  · exact directionCode_of hl.direction
  · exact timingCode_of hl.interruptTiming
  · exact nullWriteCode_of hl.nullWriteMode
  · exact addrModeCode_of hl.addressingMode
  · exact opModeCode_of hl.operatingMode

/-- An admissible hardware's buffer of at least one unit has at least one byte (R7, R115). -/
theorem legalBytes_pos {k : Config} {o : ConfigOperands} (hk : k.Admissible) (ho : o.transferCount ≠ 0) :
    0 < legalBytes k o := by
  have hcount : o.transferCount.toNat ≠ 0 := fun h => ho (BitVec.eq_of_toNat_eq h)
  have hword := hk.wordBytesPos
  refine Nat.mul_pos (Nat.pos_of_ne_zero hcount) ?_
  split <;> omega

/-- R29: a buffer of at least one byte starts inside the window. -/
theorem BufferAt_insideWindow {k : Config} {address : Word} {n offset : Nat} (h : BufferAt k address n offset)
    (hn : 0 < n) : offset ≤ 8191 := by
  obtain ⟨_, h⟩ | ⟨_, _, _, h⟩ := h
  · omega
  · simp only [windowSize] at h
    omega

/-- Settles O19: the response `ok` means that both buffers were translated, and each has at least one byte. -/
theorem configuredOffsetsInsideWindow : Obligations.ConfiguredOffsetsInsideWindow := by
  intro s t o c hcfg hc h htrace
  obtain ⟨_, ⟨_, rfl⟩ | ⟨d, hd, ⟨_, _, _, rfl⟩ | ⟨_, hcount, rfl⟩⟩⟩ := execConfigure_cases h
  · simp at htrace
  · simp at htrace
  · obtain rfl : d = c := Fin.ext (hd.symm.trans hc)
    have hbytes := legalBytes_pos hcfg hcount
    obtain ⟨_, ht⟩ | ⟨a, ha, ⟨_, ht⟩ | ⟨b, hb, ht⟩⟩ := applyConfigure_cases d o s
    · simp [ht] at htrace
    · simp [ht] at htrace
    · rw [ht]
      simpa [applyTail] using And.intro (BufferAt_insideWindow ha hbytes) (BufferAt_insideWindow hb hbytes)

end Sys2Proof.Machine

/-! O10, O9, O46, O7, O42: the steps of the schedule and the rows of R66's table, each the other's (log entries 3, 4, 7);
what the issue of a command and a callback's return leave (R51, R52); the preempted mainline (R68). -/

namespace Sys2Proof.Machine

/-! ### The rows G4, G5 and G6, where R66 enables them and where it does not -/

theorem onNext_eq_next {r : Result} {k : State → Result} {t : State} :
    onNext r k = .next t ↔ ∃ u, r = .next u ∧ k u = .next t := by
  cases r <;> simp

/-- A command run whole is its issue (G4) and then its micro-steps (G3), with nothing between them (log entry 4). -/
theorem exec_globalSteps {i : Instr} {s t : State} (h : exec i s = .next t) : Relation.TransGen GlobalStep s t := by
  rw [wholeCommandIsItsMicroSteps i s 23 le_rfl] at h
  obtain ⟨u, hissue, hrun⟩ := onNext_eq_next.1 h
  exact .head' (issueCommand_globalStep hissue) (runCommand_globalSteps hrun)

theorem takeEvent_issue {packet : List Word} {i : Instr} (hd : decode packet = .ok i) (s : State) :
    takeEvent (.issue packet) s = issueCommand i s := by
  simp only [takeEvent, hd]

theorem callbackReturn_of_waiting {s : State} {h : Handler} {below : List Handler} (ha : s.active = h :: below)
    (hp : h.phase = .callback) (hc : h.cmd = none) :
    callbackReturn s = .next { s with active := { h with phase := .d3 } :: below } := by
  simp [callbackReturn, ha, hp, hc, State.setPhase]

theorem callbackReturn_of_not_waiting {s : State}
    (hn : ∀ h below, s.active = h :: below → h.phase ≠ .callback ∨ h.cmd ≠ none) :
    callbackReturn s = .refused .stepNotEnabled := by
  unfold callbackReturn
  cases ha : s.active with
  | nil => rfl
  | cons h below =>
    refine if_neg ?_
    simpa [imp_iff_not_or] using hn h below ha

/-- The condition of G6 (R66, R145): the mainline is held, and may be woken. -/
theorem wakeMainline_of_enabled {s : State} (hhold : s.idleHold = true)
    (hwake : s.cfg.wakePolicy = .onInterrupt → s.enteredSinceWait = true) :
    wakeMainline s = { s with idleHold := false } :=
  if_pos (Bool.and_eq_true_iff.2 ⟨hhold, (wakeCondition_iff s).2 hwake⟩)

theorem wakeMainline_of_not_enabled {s : State}
    (h : ¬ (s.idleHold = true ∧ (s.cfg.wakePolicy = .onInterrupt → s.enteredSinceWait = true))) : wakeMainline s = s := by
  refine if_neg fun hw => h ?_
  rwa [Bool.and_eq_true_iff, wakeCondition_iff] at hw

/-! ### Every enabled row has its schedule entry -/

/-- The entry that names a row of R66's table takes it wherever the row is enabled. -/
theorem exists_takeEvent_of_globalStep {s t : State} (h : GlobalStep s t) : ∃ e, takeEvent e s = .next t := by
  cases h with
  | completion c => exact ⟨.completion c, rfl⟩
  | entry c htake hmax => exact ⟨.enter c, if_pos ((enterable_iff s c).2 ⟨htake, hmax⟩)⟩
  | command k hrun hstep => exact ⟨.run, (contextStep_of_cmd hrun).trans hstep⟩
  | dispatch hd below hact hcmd hstep => exact ⟨.run, (contextStep_of_dispatch hact hcmd).trans hstep⟩
  | issue i hmay hidle =>
    refine ⟨.issue (encode i), ?_⟩
    rw [takeEvent_issue (decode_eq_ok_iff.2 rfl), issueCommand_next ((canIssue_iff_mayIssue s).2 hmay) hidle]
  | callbackReturn hd below hact hphase hcmd => exact ⟨.callbackReturn, callbackReturn_of_waiting hact hphase hcmd⟩
  | wake hhold hwake => exact ⟨.wake, congrArg Host.Outcome.next (wakeMainline_of_enabled hhold hwake)⟩
  | reset => exact ⟨.reset, rfl⟩

/-- Settles O10: taking the entry off again leaves the state in which the row is enabled. -/
theorem everyGlobalStepCanBeTaken : Obligations.EveryGlobalStepCanBeTaken := by
  intro s t h
  obtain ⟨e, he⟩ := exists_takeEvent_of_globalStep h
  exact ⟨e, (step_of_schedule rfl).trans he⟩

/-! ### Every schedule entry takes rows of the table -/

/-- An entry that is neither a whole command nor a wake is exactly one row of R66's table. -/
theorem Taken.globalStep {s t : State} {e : Event} (h : Taken s e t) (hcommand : ∀ packet, e ≠ .command packet)
    (hwake : e ≠ .wake) : GlobalStep s t := by
  cases h with
  | completion c => exact .completion c
  | enter c htake hmax => exact .entry c htake hmax
  | micro k hk hm => exact .command k hk hm
  | dispatch hd below ha hc hm => exact .dispatch hd below ha hc hm
  | issue i hm => exact issueCommand_globalStep hm
  | command i hm => exact absurd rfl (hcommand _)
  | callbackReturn hm =>
    obtain ⟨hd, below, ha, hp, hc, rfl⟩ := callbackReturn_cases hm
    exact .callbackReturn hd below ha hp hc
  | wake => exact absurd rfl hwake

/-- Settles O9: a reset is G7, a wake is G6 or nothing, a whole command is its issue and its micro-steps, and every other
entry is the row it names. -/
theorem stepTakesOnlyGlobalSteps : Obligations.StepTakesOnlyGlobalSteps := by
  intro s t e rest hs h
  refine ⟨fun hcommand hwake => ?_, ?_, ?_⟩
  · by_cases he : e = .reset
    · subst he
      rw [step_reset hs h]
      exact .reset
    · exact (taken_of_step hs he h).globalStep hcommand hwake
  · rintro rfl
    cases taken_of_step hs (by simp) h
    by_cases hen : s.idleHold = true ∧ (s.cfg.wakePolicy = .onInterrupt → s.enteredSinceWait = true)
    · rw [wakeMainline_of_enabled (s := { s with schedule := rest }) hen.1 hen.2]
      exact .inl (.wake hen.1 hen.2)
    · exact .inr ⟨wakeMainline_of_not_enabled (s := { s with schedule := rest }) hen, hen⟩
  · rintro packet rfl
    cases taken_of_step hs (by simp) h with
    | command i hm => exact exec_globalSteps hm

/-! ### The preempted mainline -/

/-- While a handler is active, what a step but a reset sets is the handler's own continuation (R68). -/
theorem Taken.mainOp {s t : State} {e : Event} (h : Taken s e t) (ha : s.active ≠ []) : t.mainOp = s.mainOp := by
  cases h with
  | completion c => rfl
  | enter c => rfl
  | micro k hk hm =>
    obtain ⟨l, _, hmain, _⟩ := microStep_context hm
    rw [hmain, setCmd_mainOp, if_neg ha]
  | dispatch hd below hact hc hm =>
    obtain ⟨_, rfl⟩ | ⟨_, _, rfl⟩ | ⟨_, rfl⟩ | ⟨_, rfl⟩ := dispatchStep_cases hm <;> simp
  | issue i hm =>
    obtain ⟨_, rfl⟩ := issueCommand_cases hm
    rw [setCmd_mainOp, if_neg ha]
  | command i hm =>
    obtain ⟨_, hmain, _⟩ | ⟨_, hnil, _⟩ := exec_contexts hm
    · exact hmain
    · exact absurd hnil ha
  | callbackReturn hm =>
    obtain ⟨_, _, _, _, _, rfl⟩ := callbackReturn_cases hm
    rfl
  | wake => exact wakeMainline_mainOp s

/-- Settles O46: what a step sets, it sets in the innermost context, here a handler. -/
theorem preemptedMainlineKeepsItsPlace : Obligations.PreemptedMainlineKeepsItsPlace :=
  fun _ _ _ _ hs he ha h => (taken_of_step hs he h).mainOp ha

/-! ### The issue of a command, and a callback's return -/

/-- Settles O7: the issue sets the continuation of the innermost context and nothing else. -/
theorem issueStartsAtFirstMicroStep : Obligations.IssueStartsAtFirstMicroStep := by
  intro s packet rest i hs hd hmay hidle
  have hcan : ({ s with schedule := rest } : State).canIssue = true := (canIssue_iff_mayIssue s).2 hmay
  have hstep : step s = .next (({ s with schedule := rest } : State).setCmd (some (firstCont i))) := by
    rw [step_of_schedule hs, takeEvent_issue hd, issueCommand_next hcan hidle]
  refine ⟨_, hstep, State.runningCmd_setCmd_of_canIssue hcan _, fun d => by simp, by simp, ?_, ?_, by simp, by simp, by simp,
    by simp, by simp⟩
  · intro h below ha
    rw [State.setCmd_of_handler (s := { s with schedule := rest }) ha]
    exact ⟨rfl, rfl⟩
  · intro ha
    rw [State.setCmd_of_mainline (s := { s with schedule := rest }) ha]
    exact ⟨ha, rfl⟩

/-- Settles O42: a handler that waits goes on at `d3`; with no handler, or one that does not wait, the entry is refused. -/
theorem callbackReturnGoesToD3 : Obligations.CallbackReturnGoesToD3 := by
  intro s rest hs
  rw [step_of_schedule hs]
  constructor
  · intro h below ha hp hc
    exact ⟨_, callbackReturn_of_waiting (s := { s with schedule := rest }) ha hp hc, rfl, fun _ => rfl, rfl, rfl, rfl, rfl,
      rfl⟩
  · exact callbackReturn_of_not_waiting (s := { s with schedule := rest })

end Sys2Proof.Machine

/-! O4, O3, O5, O35: packets and their commands (R80 to R88); which commands are reported (R82, R202). -/

namespace Sys2Proof

/-! ### Decoding -/

/-- Settles O4: the decoder and the encoder are inverse to each other. -/
theorem decodeAcceptsExactlyEncodings : Obligations.DecodeAcceptsExactlyEncodings := fun _ _ => decode_eq_ok_iff

theorem decode_and_encode_of_encode {packet : List Word} {i : Instr} (h : encode i = packet) :
    decode packet = .ok i ∧ encode i = packet := ⟨decode_eq_ok_iff.2 h.symm, h⟩

/-- Settles O3: each encoding is computed, and what decodes to the command is its encoding; each line is parsed. -/
theorem workedEncodingsDecode : Obligations.WorkedEncodingsDecode :=
  ⟨decode_and_encode_of_encode rfl, decode_and_encode_of_encode rfl, decode_and_encode_of_encode rfl,
    decode_and_encode_of_encode rfl, decode_and_encode_of_encode rfl, by decide, by decide, by decide, by decide, by decide⟩

/-- The opcodes of R83. -/
theorem opcode_range (i : Instr) : 1 ≤ i.opcode.toNat ∧ i.opcode.toNat ≤ 11 := by
  cases i <;> simp only [Instr.opcode] <;> decide

/-- The header of a packet that decodes is its command's opcode (R80). -/
theorem header_toNat_of_decode {header : Word} {ops : List Word} {i : Instr} (h : decode (header :: ops) = .ok i) :
    header.toNat = i.opcode.toNat := by
  have hheader : header = i.opcode.setWidth 16 := (List.cons.inj (decode_eq_ok_iff.1 h)).1
  rw [hheader, BitVec.toNat_setWidth_of_le (by decide)]

/-- R85: no command has such a header, so the packet is rejected, whatever words follow. -/
theorem decode_illegalHeader {header : Word}
    (h : header.toNat / 16 ≠ 0 ∨ header.toNat % 16 = 0 ∨ 12 ≤ header.toNat % 16) (ops : List Word) :
    ∃ why, decode (header :: ops) = .error why := by
  cases hd : decode (header :: ops) with
  | error why => exact ⟨why, rfl⟩
  | ok i =>
    have hop := opcode_range i
    rw [← header_toNat_of_decode hd] at hop
    omega

end Sys2Proof

namespace Sys2Proof.Machine

/-- A packet that is rejected is refused, to issue it and to run it whole (R85). -/
theorem takeEvent_undecodable {packet : List Word} {why : DecodeError} (hd : decode packet = .error why) (s : State) :
    takeEvent (.issue packet) s = .refused (.illegalCommand why) ∧
      takeEvent (.command packet) s = .refused (.illegalCommand why) := by
  simp only [takeEvent, hd, and_self]

/-- Settles O5: a packet with such a header is rejected, and so refused by either entry. -/
theorem illegalHeaderRefused : Obligations.IllegalHeaderRefused := by
  intro s header ops rest hheader hs
  obtain ⟨why, hd⟩ := decode_illegalHeader hheader ops
  obtain ⟨hissue, hcommand⟩ := takeEvent_undecodable hd { s with schedule := rest }
  refine ⟨why, ?_⟩
  rcases hs with hs | hs <;> rw [step_of_schedule hs]
  · exact hissue
  · exact hcommand

/-! ### The legal sets of the operands (R82) -/

theorem legalChannel_of_chan {w : Word} {c : Chan} (hw : w.toNat = c.val) : legalChannel w = true :=
  decide_eq_true (by omega)

theorem legalChannel_eq_false {w : Word} (hw : 7 < w.toNat) : legalChannel w = false := decide_eq_false (by omega)

theorem legalBuffer_iff {k : Config} {address : Word} {n : Nat} :
    legalBuffer k address n = true ↔ ¬ BufferOutside k address n := by
  simp only [legalBuffer, BufferOutside, Bool.or_eq_true, decide_eq_true_eq, not_and_or, not_or, not_not, ne_eq, not_lt]

theorem legalBuffer_eq_false {k : Config} {address : Word} {n : Nat} (h : BufferOutside k address n) :
    legalBuffer k address n = false := Bool.eq_false_iff.2 fun hl => legalBuffer_iff.1 hl h

theorem legalBuffer_of_bufferAt {k : Config} {address : Word} {n offset : Nat} (h : BufferAt k address n offset) :
    legalBuffer k address n = true := by
  refine legalBuffer_iff.2 fun hout => ?_
  rw [← translate_eq_none, translate_eq_some.2 h] at hout
  cases hout

theorem operandsLegal_configure_iff {k : Config} {o : ConfigOperands} :
    (Instr.configure o).operandsLegal k = true ↔
      legalChannel o.channel = true ∧ EnumeratedLegal k o ∧
        legalBuffer k o.bufferA (legalBytes k o) = true ∧ legalBuffer k o.bufferB (legalBytes k o) = true := by
  simp only [Instr.operandsLegal, Bool.and_eq_true, decide_eq_true_eq, List.contains_iff_mem]
  constructor
  · rintro ⟨⟨⟨⟨⟨⟨⟨⟨⟨hch, hreq⟩, hsize⟩, hdir⟩, htim⟩, hnull⟩, ham⟩, hom⟩, ha⟩, hb⟩
    exact ⟨hch, ⟨hreq, hsize, hdir, htim, hnull, ham, hom⟩, ha, hb⟩
  · rintro ⟨hch, ⟨hreq, hsize, hdir, htim, hnull, ham, hom⟩, ha, hb⟩
    exact ⟨⟨⟨⟨⟨⟨⟨⟨⟨hch, hreq⟩, hsize⟩, hdir⟩, htim⟩, hnull⟩, ham⟩, hom⟩, ha⟩, hb⟩

/-! ### What a whole command emits, by whether its operands are legal -/

/-- The outputs a whole command adds, latest first: with legal operands its response (after the pulse of a START), or the
`IDLE_WAIT` of an IDLE that waits; with an illegal one the report and the abort (R200, R204). -/
inductive CommandEmits : (legal : Bool) → List Output → Prop
  | response (value : Option Word) : CommandEmits true [.rsp (.ok value)]
  | pulse (c : Chan) : CommandEmits true [.rsp (.ok none), .force c]
  | wait : CommandEmits true [.idleWait]
  | report (kind : ErrorKind) (op : BitVec 4) (value : Word) : CommandEmits false [.rsp .aborted, .err kind op value]

theorem CommandEmits.errorReports_eq {legal : Bool} {out : List Output} (h : CommandEmits legal out) :
    errorReports out = if legal = true then 0 else 1 := by
  cases h <;> rfl

/-- From `s` to `t` the outputs of a command with legal, or with illegal, operands are added. -/
def AddsOutputs (legal : Bool) (s t : State) : Prop := ∃ out, t.trace = out ++ s.trace ∧ CommandEmits legal out

section

variable {s u : State} (hu : u.trace = s.trace) {legal : Bool}
include hu

theorem addsOutputs_respond (hl : legal = true) (value : Option Word) : AddsOutputs legal s (u.respond value) :=
  ⟨[.rsp (.ok value)], by simp [hu], hl ▸ .response value⟩

theorem addsOutputs_raiseError (hl : legal = false) (kind : ErrorKind) (op : BitVec 4) (value : Word) :
    AddsOutputs legal s (u.raiseError kind op value) :=
  ⟨[.rsp .aborted, .err kind op value], by simp [hu], hl ▸ .report kind op value⟩

end

theorem addsOutputs_force {legal : Bool} (hl : legal = true) (c : Chan) (s : State) :
    AddsOutputs legal s ((s.emit (.force c)).respond none) :=
  ⟨[.rsp (.ok none), .force c], by simp, hl ▸ .pulse c⟩

/-- CONFIGURE completes iff its operands are legal (R110, R118). -/
theorem execConfigure_addsOutputs {o : ConfigOperands} {s t : State} (h : execConfigure o s = .next t) :
    AddsOutputs ((Instr.configure o).operandsLegal s.cfg) s t := by
  obtain ⟨_, ⟨hw, rfl⟩ | ⟨c, hw, ⟨_, _, hf, rfl⟩ | ⟨hl, _, rfl⟩⟩⟩ := execConfigure_cases h
  · refine addsOutputs_raiseError rfl (Bool.eq_false_iff.2 fun hlegal => ?_) _ _ _
    simpa [legalChannel_eq_false hw] using (operandsLegal_configure_iff.1 hlegal).1
  · refine addsOutputs_raiseError rfl (Bool.eq_false_iff.2 fun hlegal => ?_) _ _ _
    obtain ⟨_, henum, _⟩ := operandsLegal_configure_iff.1 hlegal
    simp [firstIllegal_eq_none.2 henum] at hf
  · obtain ⟨ha, h⟩ | ⟨_, ha, ⟨hb, h⟩ | ⟨_, hb, h⟩⟩ := applyConfigure_cases c o s <;> rw [h]
    · refine addsOutputs_raiseError rfl (Bool.eq_false_iff.2 fun hlegal => ?_) _ _ _
      obtain ⟨_, _, hA, _⟩ := operandsLegal_configure_iff.1 hlegal
      exact legalBuffer_iff.1 hA ha
    · refine addsOutputs_raiseError rfl (Bool.eq_false_iff.2 fun hlegal => ?_) _ _ _
      obtain ⟨_, _, _, hB⟩ := operandsLegal_configure_iff.1 hlegal
      exact legalBuffer_iff.1 hB hb
    · exact addsOutputs_respond rfl (operandsLegal_configure_iff.2 ⟨legalChannel_of_chan hw, hl,
        legalBuffer_of_bufferAt ha, legalBuffer_of_bufferAt hb⟩) _

theorem exec_addsOutputs {i : Instr} {s t : State} (h : exec i s = .next t) :
    AddsOutputs (i.operandsLegal s.cfg) s t := by
  cases i <;> simp only [exec] at h
  case configure o => exact execConfigure_addsOutputs h
  case translate =>
    obtain ⟨_, ⟨hout, rfl⟩ | ⟨_, hat, rfl⟩⟩ := execTranslate_cases h
    · exact addsOutputs_raiseError rfl (legalBuffer_eq_false hout) _ _ _
    · exact addsOutputs_respond rfl (legalBuffer_of_bufferAt hat) _
  case idle =>
    obtain ⟨_, _, ⟨_, rfl⟩ | ⟨_, rfl⟩⟩ := execIdle_cases h
    · exact addsOutputs_respond rfl rfl _
    · exact ⟨[.idleWait], by simp, .wait⟩
  case enable =>
    obtain ⟨_, ⟨hw, rfl⟩ | ⟨_, hw, rfl⟩⟩ := execEnable_cases h
    · exact addsOutputs_raiseError rfl (legalChannel_eq_false hw) _ _ _
    · exact addsOutputs_respond (by split <;> simp) (legalChannel_of_chan hw) _
  case disable =>
    obtain ⟨_, ⟨hw, rfl⟩ | ⟨_, hw, rfl⟩⟩ := execDisable_cases h
    · exact addsOutputs_raiseError rfl (legalChannel_eq_false hw) _ _ _
    · exact addsOutputs_respond (by split <;> simp) (legalChannel_of_chan hw) _
  case start =>
    obtain ⟨_, ⟨hw, rfl⟩ | ⟨c, hw, rfl⟩⟩ := execStart_cases h
    · exact addsOutputs_raiseError rfl (legalChannel_eq_false hw) _ _ _
    · exact addsOutputs_force (legalChannel_of_chan hw) c s
  case setPri =>
    obtain ⟨_, ⟨hw, rfl⟩ | ⟨_, hw, ⟨hp, rfl⟩ | ⟨hp, rfl⟩⟩⟩ := execSetPri_cases h
    · exact addsOutputs_raiseError rfl (by simp [Instr.operandsLegal, legalChannel_eq_false hw]) _ _ _
    · exact addsOutputs_raiseError rfl (Bool.and_eq_false_imp.2 fun _ => decide_eq_false (by omega)) _ _ _
    · exact addsOutputs_respond rfl (by simp [Instr.operandsLegal, legalChannel_of_chan hw, hp]) _
  case complete =>
    obtain ⟨_, ⟨hw, rfl⟩ | ⟨_, hw, rfl⟩⟩ := execComplete_cases h
    · exact addsOutputs_raiseError rfl (legalChannel_eq_false hw) _ _ _
    · exact addsOutputs_respond rfl (legalChannel_of_chan hw) _
  all_goals
    obtain ⟨_, h⟩ := issuing_eq_next.1 h
    cases h
    exact addsOutputs_respond (by simp) rfl _

/-! ### A command that may be issued and has a meaning answers a next state -/

theorem execConfigure_answers {o : ConfigOperands} {s : State} (hs : s.canIssue = true) (ho : o.transferCount ≠ 0) :
    ∃ t, execConfigure o s = .next t := by
  rw [execConfigure, issuing_of_canIssue hs]
  cases chan? o.channel with
  | none => exact ⟨_, rfl⟩
  | some c =>
    cases firstIllegal s.cfg o with
    | some report => exact ⟨_, rfl⟩
    | none => exact ⟨_, if_neg ho⟩

theorem execIdle_answers {s : State} (hs : s.canIssue = true) (ha : s.active = []) : ∃ t, execIdle s = .next t := by
  by_cases hi : s.idleCnt.toNat = 1000
  · exact ⟨_, execIdle_waits hs ha hi⟩
  · exact ⟨_, execIdle_inhibited hs ha hi⟩

/-- What stops a command is a CONFIGURE's transfer count of 0 (R116) or an IDLE from a callback (R144), and no other
operand. -/
theorem exec_answers {i : Instr} {s : State} (hs : s.canIssue = true) (hi : i.wellFormed = true)
    (hidle : i = .idle → s.active = []) : ∃ t, exec i s = .next t := by
  cases i <;> simp only [exec]
  case configure o => exact execConfigure_answers hs (by simpa [Instr.wellFormed] using hi)
  case idle => exact execIdle_answers hs (hidle rfl)
  case inhibit => exact ⟨_, execInhibit_next hs⟩
  case release => exact ⟨_, execRelease_next hs⟩
  case mayIdle => exact ⟨_, execMayIdle_next hs⟩
  all_goals
    simp only [execTranslate, execEnable, execDisable, execStart, execSetPri, execComplete, issuing_of_canIssue hs]
    repeat' split
    all_goals exact ⟨_, rfl⟩

/-- Settles O35: the command answers a next state, and its outputs hold a report iff an operand is illegal. -/
theorem reportedIffOperandIllegal : Obligations.ReportedIffOperandIllegal := by
  intro i s hmay hi hidle
  obtain ⟨t, h⟩ := exec_answers ((canIssue_iff_mayIssue s).2 hmay) hi hidle
  obtain ⟨out, htrace, hout⟩ := exec_addsOutputs h
  exact ⟨t, out, h, htrace, hout.errorReports_eq⟩

end Sys2Proof.Machine

/-! O17, O18, O16, O15: CONFIGURE run whole (R110 to R119), by the point where it ends: the report of an operand (R111,
R112), the refusal of an empty transfer (R116), an address outside the window (R118), the response `ok`. -/

namespace Sys2Proof.Machine

/-! ### It ends before the application phase -/

theorem exists_chan {w : Word} (hw : w.toNat ≤ 7) : ∃ c, chan? w = some c := ⟨⟨w.toNat, by omega⟩, chan?_eq_some.2 rfl⟩

section

variable {s : State} (hs : s.canIssue = true) {o : ConfigOperands}
include hs

theorem execConfigure_illegalChannel (hw : 7 < o.channel.toNat) :
    execConfigure o s = .next (s.raiseError .invalidChannelId opConfigure o.channel) := by
  simp only [execConfigure, issuing_of_canIssue hs, chan?_eq_none.2 hw]

theorem execConfigure_firstIllegal (hw : o.channel.toNat ≤ 7) {kind : ErrorKind} {value : Word}
    (hf : firstIllegal s.cfg o = some (kind, value)) :
    execConfigure o s = .next (s.raiseError kind opConfigure value) := by
  obtain ⟨c, hc⟩ := exists_chan hw
  simp only [execConfigure, issuing_of_canIssue hs, hc, hf]

theorem execConfigure_zeroCount (hw : o.channel.toNat ≤ 7) (hl : EnumeratedLegal s.cfg o) (ht : o.transferCount = 0) :
    execConfigure o s = .refused .zeroTransferCount := by
  obtain ⟨c, hc⟩ := exists_chan hw
  simp only [execConfigure, issuing_of_canIssue hs, hc, firstIllegal_eq_none.2 hl, if_pos ht]

end

/-- Settles O17: an illegal channel is reported first; with a legal one the report is that of `firstIllegal`, whose tests
stand in signature order. -/
theorem configureReportsFirstIllegalOperand : Obligations.ConfigureReportsFirstIllegalOperand := by
  intro s o hmay
  have hs := (canIssue_iff_mayIssue s).2 hmay
  refine ⟨execConfigure_illegalChannel hs, fun hw => ⟨fun hreq => ?_, fun hreq hsize => ?_, fun hreq hsize hdir => ?_,
    fun hreq hsize hdir htim => ?_, fun hreq hsize hdir htim hnull => ?_, fun hreq hsize hdir htim hnull ham => ?_,
    fun hreq hsize hdir htim hnull ham hom => ?_⟩⟩ <;>
    refine execConfigure_firstIllegal hs hw ?_
  · simp [firstIllegal, hreq]
  · simp [firstIllegal, hreq, hsize]
  · simp [firstIllegal, hreq, hsize.not_gt, hdir]
  · simp [firstIllegal, hreq, hsize.not_gt, hdir.not_gt, htim]
  · simp [firstIllegal, hreq, hsize.not_gt, hdir.not_gt, htim.not_gt, hnull]
  · simp [firstIllegal, hreq, hsize.not_gt, hdir.not_gt, htim.not_gt, hnull.not_gt, ham]
  · simp [firstIllegal, hreq, hsize.not_gt, hdir.not_gt, htim.not_gt, hnull.not_gt, ham.not_gt, hom]

/-- Settles O18: past the validation, the count is tested before anything is applied. -/
theorem configureOfZeroUnitsRefused : Obligations.ConfigureOfZeroUnitsRefused := fun s _ hmay =>
  execConfigure_zeroCount ((canIssue_iff_mayIssue s).2 hmay)

/-! ### It ends in the application phase -/

/-- Whatever CONFIGURE applies, it applies to the slot of its channel alone (R110). -/
theorem applyConfigure_frame (c : Chan) (o : ConfigOperands) (s : State) :
    SameSequencing s (applyConfigure c o s) ∧ SameOtherSlots s (applyConfigure c o s) c ∧
      (applyConfigure c o s).idleCnt = s.idleCnt := by
  obtain ⟨_, h⟩ | ⟨_, _, ⟨_, h⟩ | ⟨_, _, h⟩⟩ := applyConfigure_cases c o s <;> rw [h]
  all_goals
    refine ⟨⟨rfl, rfl, rfl, rfl, rfl, rfl⟩, fun d hd => ?_, rfl⟩
    simp [applyEnumerated, applyTail, State.slot_modSlot_other _ _ hd]

/-- A slot into which `c2` to `c8` have written legal operands holds their codes (R114). -/
theorem enumeratedStored_of_written {k : Config} {o : ConfigOperands} (hl : EnumeratedLegal k o) {x : Slot}
    (hx : { x with
      req := o.requestSource
      size := dataSizeOf o.dataSize
      dir := directionOf o.direction
      timing := timingOf o.interruptTiming
      nullw := nullWriteOf o.nullWriteMode
      amode := addrModeOf o.addressingMode
      mode := opModeOf o.operatingMode } = x) : EnumeratedStored o x := by
  rw [← hx]
  exact ⟨rfl, dataSizeCode_of hl.dataSize, directionCode_of hl.direction, timingCode_of hl.interruptTiming,
    nullWriteCode_of hl.nullWriteMode, addrModeCode_of hl.addressingMode, opModeCode_of hl.operatingMode⟩

/-- Settles O16: what `c1` to `c8`, and with `buffer_a` inside the window `c9` too, have written stays. -/
theorem configureAddressFailureIsNotRolledBack : Obligations.ConfigureAddressFailureIsNotRolledBack := by
  intro s o c hmay hw hl ht
  have hnext := execConfigure_next ((canIssue_iff_mayIssue s).2 hmay) hw hl ht
  obtain ⟨hseq, hother, hcnt⟩ := applyConfigure_frame c o s
  refine ⟨fun hA => ?_, fun a ha hB => ?_⟩
  · have happly : applyConfigure c o s = (applyEnumerated c o s).raiseError .invalidAddress opConfigure o.bufferA := by
      simp only [applyConfigure, bufferOffset_eq_none.2 hA]
    refine ⟨_, hnext, by rw [happly]; rfl, hseq, hother, hcnt, ?_⟩
    rw [happly, State.raiseError_slot, applyEnumerated, State.slot_modSlot_same]
    exact ⟨enumeratedStored_of_written hl rfl, by simp⟩
  · obtain ⟨x, hx, rfl⟩ := exists_bufferOffset ha
    have happly : applyConfigure c o s = ((applyEnumerated c o s).modSlot c fun y => { y with sta := x }).raiseError
        .invalidAddress opConfigure o.bufferB := by
      simp only [applyConfigure, hx, bufferOffset_eq_none.2 hB]
    refine ⟨_, hnext, by rw [happly]; rfl, hseq, hother, hcnt, ?_⟩
    rw [happly, State.raiseError_slot, applyEnumerated, State.modSlot_modSlot, State.slot_modSlot_same]
    exact ⟨enumeratedStored_of_written hl rfl, by simp⟩

/-- Settles O15: both buffers translate, so every part of the bundle is written. -/
theorem configureAppliesWholeBundle : Obligations.ConfigureAppliesWholeBundle := by
  intro s o c a b hmay hw hl ht ha hb
  have hnext := execConfigure_next ((canIssue_iff_mayIssue s).2 hmay) hw hl ht
  obtain ⟨hseq, hother, hcnt⟩ := applyConfigure_frame c o s
  obtain ⟨x, hx, rfl⟩ := exists_bufferOffset ha
  obtain ⟨y, hy, rfl⟩ := exists_bufferOffset hb
  have happly : applyConfigure c o s = (applyTail c o ((applyEnumerated c o s).modSlot c fun z =>
      { z with sta := x, stb := y })).respond none := by
    simp only [applyConfigure, hx, hy, State.modSlot_modSlot]
  refine ⟨_, hnext, by rw [happly]; rfl, hseq, hother, hcnt, ?_⟩
  rw [happly, State.respond_slot, applyTail, applyEnumerated, State.modSlot_modSlot, State.modSlot_modSlot,
    State.slot_modSlot_same]
  exact ⟨enumeratedStored_of_written hl rfl, by simp⟩

end Sys2Proof.Machine

/-! O56: the race of log entry 15, a run in two parts: up to the micro-step before the end of the preempted CONFIGURE, which
is computed, and its last two micro-steps, which are as in every state. -/

namespace Sys2Proof.Machine

/-- A run goes on from where its first part has led. -/
theorem core_run_add {m : Nat} {s t : State} (h : core.run m s = .next t) (n : Nat) :
    core.run (m + n) s = core.run n t := by
  induction m generalizing s with
  | zero =>
    cases h
    rw [Nat.zero_add]
  | succ m ih =>
    cases hstep : step s with
    | next u =>
      rw [core_run_succ hstep] at h
      rw [Nat.add_right_comm, core_run_succ hstep, ih h]
    | fault r => simp [Host.Core.run, show core.step s = .fault r from hstep] at h
    | refused r => simp [Host.Core.run, show core.step s = .refused r from hstep] at h

/-- The last two micro-steps of a mainline CONFIGURE with a callback: `c14` unmasks the line for the callback the command
was given, and neither of them looks at the one registered by then (R110, R117). -/
theorem run_c14_c15 {s : State} {l : ConfigLocals} (ha : s.active = []) (hhold : s.idleHold = false)
    (hop : s.mainOp = some (.c14 l)) (hs : s.schedule = [.run, .run]) (hcb : l.ops.callback ≠ cbNone) :
    ∃ t, core.run 2 s = .next t ∧ t.active = [] ∧ t.mainOp = none ∧ t.schedule = [] ∧ (t.slot l.chan).ie = true ∧
      (t.slot l.chan).cb = (s.slot l.chan).cb := by
  have hc14 : step s = .next { setIe l.chan true s with schedule := [.run], mainOp := some (.c15 l) } := by
    rw [step_run_of_cmd hs (k := .c14 l) (by simp [State.runningCmd, ha, hhold, hop]), microStep, microC14,
      bne_iff_ne.2 hcb]
    exact congrArg _ (State.setCmd_of_mainline (by exact ha) _)
  have hc15 : step { setIe l.chan true s with schedule := [.run], mainOp := some (.c15 l) } =
      .next ({ setIe l.chan true s with schedule := [], mainOp := none }.respond none) := by
    rw [step_run_of_cmd rfl (k := .c15 l) (by simp [State.runningCmd, ha, hhold]), microStep, microC15, if_neg hcb]
    exact congrArg _ (State.setCmd_of_mainline (by exact ha) _)
  have hslot : ((setIe l.chan true s).slot l.chan).ie = true ∧
      ((setIe l.chan true s).slot l.chan).cb = (s.slot l.chan).cb := by simp [setIe]
  exact ⟨_, (core_run_succ hc14 1).trans (core_run_succ hc15 0), ha, rfl, rfl, hslot⟩

/-- A CONFIGURE of one unit, both buffers at the base of the window. -/
def raceOperands (channel callback : Word) : ConfigOperands :=
  ⟨channel, 0, 0, 0, 0, 0, 0, 0, 0x4000, 0x4000, 0, 1, callback⟩

/-- The schedule of the race, but for its last two entries: channel 1 is given a callback and completes; the mainline's
CONFIGURE of channel 0 with a callback runs from `v1` to `c13`; the handler of channel 1 preempts it, and its callback
configures channel 0 without one. -/
def raceUpToC14 : List Event :=
  [.command (encode (.configure (raceOperands 1 1))), .completion 1] ++
  .issue (encode (.configure (raceOperands 0 1))) :: List.replicate 21 .run ++
  [.enter 1, .run, .run, .command (encode (.configure (raceOperands 0 cbNone))), .callbackReturn, .run, .run]

theorem run_raceUpToC14 : ∃ s, core.run 31 { State.reset with schedule := raceUpToC14 ++ [.run, .run] } = .next s ∧
    s.active = [] ∧ s.idleHold = false ∧ s.mainOp = some (.c14 ⟨0, raceOperands 0 1, some 0, some 0⟩) ∧
    s.schedule = [.run, .run] ∧ (s.slot 0).cb = cbNone :=
  ⟨_, rfl, rfl, rfl, rfl, rfl, rfl⟩

/-- Settles O56: the preempted CONFIGURE resumes at `c14` with channel 0's callback gone. -/
theorem raceLeavesLineUnmaskedWithoutCallback : Obligations.RaceLeavesLineUnmaskedWithoutCallback := by
  obtain ⟨s, hrun, ha, hhold, hop, hs, hcb⟩ := run_raceUpToC14
  obtain ⟨t, hlast, hactive, hmain, hschedule, hie, hkept⟩ := run_c14_c15 ha hhold hop hs (by decide)
  exact ⟨33, _, t, 0, (core_run_add hrun 2).trans hlast, hactive, hmain, hschedule, hie, hkept.trans hcb⟩

end Sys2Proof.Machine

/-! O14: no step writes a parameter of the hardware (R130). O21: TRANSLATE run whole (R131 to R134). -/

namespace Sys2Proof.Machine

/-! ### The parameters -/

theorem dispatchStep_cfg {c : Chan} {p : Phase} {s t : State} (h : dispatchStep c p s = .next t) : t.cfg = s.cfg := by
  obtain ⟨_, rfl⟩ | ⟨_, _, rfl⟩ | ⟨_, rfl⟩ | ⟨_, rfl⟩ := dispatchStep_cases h <;> simp

/-- R130: no operation changes a parameter, the reset included. -/
theorem globalStep_cfg {s t : State} (h : GlobalStep s t) : t.cfg = s.cfg := by
  cases h with
  | command k hk hm =>
    obtain ⟨_, _, _, hcfg, _⟩ := microStep_context hm
    exact hcfg
  | dispatch hd below ha hc hm => exact dispatchStep_cfg hm
  | issue i hmay hidle => exact State.setCmd_cfg s _
  | completion | entry | callbackReturn | wake | reset => rfl

theorem globalSteps_cfg {s t : State} (h : Relation.ReflTransGen GlobalStep s t) : t.cfg = s.cfg := by
  induction h with
  | refl => rfl
  | tail _ hstep ih => exact (globalStep_cfg hstep).trans ih

/-- Settles O14: a step waits, resets, or is a run of global steps, each of which keeps the parameters. -/
theorem parametersNeverChange : Obligations.ParametersNeverChange := by
  intro s t h
  cases hs : s.schedule with
  | nil =>
    rw [step_of_nil hs] at h
    cases h
    rfl
  | cons e rest =>
    by_cases he : e = .reset
    · subst he
      rw [step_reset hs h]
      rfl
    · have hkept := globalSteps_cfg (taken_of_step hs he h).globalSteps
      exact hkept

/-! ### TRANSLATE -/

/-- Settles O21: the sentinel and a buffer inside the window translate; a buffer below the window or past its end is
outside it. An offset fits in the response's word, for it is at most the address. -/
theorem translateFollowsItsPseudocode : Obligations.TranslateFollowsItsPseudocode := by
  intro s address size hmay
  have hs := (canIssue_iff_mayIssue s).2 hmay
  refine ⟨decode_eq_ok_iff.2 rfl, fun hsent => ?_, fun hne hlow => ?_, fun hne _ hpast => ?_, fun hne hbase hfit => ?_⟩
  · exact execTranslate_next hs (.inl ⟨hsent, rfl⟩)
  · exact execTranslate_outside hs ⟨hne, .inl hlow⟩
  · exact execTranslate_outside hs ⟨hne, .inr hpast⟩
  · have hword : address.toNat - s.cfg.windowBase.toNat < 2 ^ 16 := (Nat.sub_le _ _).trans_lt address.isLt
    exact ⟨_, (BitVec.toNat_ofNat _ _).trans (Nat.mod_eq_of_lt hword),
      execTranslate_next hs (.inr ⟨hne, hbase, rfl, hfit⟩)⟩

end Sys2Proof.Machine

/-! O22, O24, O25, O34, O27: INHIBIT, RELEASE, MAYIDLE and IDLE run whole (R140 to R146), and the wake (R145). -/

namespace Sys2Proof.Machine

/-! ### A step of the mainline -/

section

variable {s t : State} {rest : List Event} {k : Cont} (ha : s.active = []) (hhold : s.idleHold = false)
include ha hhold

/-- A command issued in a mainline with none in progress (R66, G4). -/
theorem step_issue_mainline {i : Instr} (hop : s.mainOp = none) (hs : s.schedule = .issue (encode i) :: rest) :
    step s = .next { s with schedule := rest, mainOp := some (firstCont i) } := by
  rw [step_of_schedule hs, takeEvent_issue (decode_eq_ok_iff.2 rfl),
    issueCommand_next (s := { s with schedule := rest }) (by simp [State.canIssue, ha, hop, hhold]) fun _ => ha,
    State.setCmd_of_mainline (by exact ha)]

/-- A mainline micro-step that goes on at another label. -/
theorem step_goto_mainline {l : Cont} (hs : s.schedule = .run :: rest) (hk : s.mainOp = some k)
    (h : microStep k { s with schedule := rest } = goto l t) (ht : t.active = []) :
    step s = .next { t with mainOp := some l } := by
  rw [step_run_of_cmd hs (k := k) (by simp [State.runningCmd, ha, hhold, hk]), h, goto, State.setCmd_of_mainline ht]

/-- A mainline micro-step that ends its command. -/
theorem step_finish_mainline {value : Option Word} (hs : s.schedule = .run :: rest) (hk : s.mainOp = some k)
    (h : microStep k { s with schedule := rest } = finish value t) (ht : t.active = []) :
    step s = .next { t.respond value with mainOp := none } := by
  rw [step_run_of_cmd hs (k := k) (by simp [State.runningCmd, ha, hhold, hk]), h, finish,
    State.setCmd_of_mainline (by exact ht)]

end

/-! ### The counter's commands -/

theorem oneShot_iff {m : OpMode} : oneShot m = true ↔ m = .oneShot ∨ m = .oneShotPingPong := by cases m <;> simp [oneShot]

/-- ENABLE of a channel in a one-shot mode ends with INHIBIT (R161). -/
theorem execEnable_oneShot {s : State} {w : Word} {c : Chan} (hs : s.canIssue = true) (hw : w.toNat = c.val)
    (hm : (s.slot c).mode = .oneShot ∨ (s.slot c).mode = .oneShotPingPong) :
    execEnable w s = .next ((raiseCounter s.idleCnt (setEn c s)).respond none) := by
  rw [execEnable_next hs hw, if_pos (oneShot_iff.2 hm)]

/-- DISABLE of a channel in a one-shot mode ends with RELEASE (R163). -/
theorem execDisable_oneShot {s : State} {w : Word} {c : Chan} (hs : s.canIssue = true) (hw : w.toNat = c.val)
    (hm : (s.slot c).mode = .oneShot ∨ (s.slot c).mode = .oneShotPingPong) :
    execDisable w s = .next ((lowerCounter s.idleCnt (clearHalf c (clearEn c s))).respond none) := by
  rw [execDisable_next hs hw, if_pos (oneShot_iff.2 hm)]

theorem sameSequencing_raiseCounter (v : Word) (s : State) : SameSequencing s ((raiseCounter v s).respond none) := by
  constructor <;> simp

theorem sameSequencing_lowerCounter (v : Word) (s : State) : SameSequencing s ((lowerCounter v s).respond none) := by
  constructor <;> simp

/-- Settles O22: each of the four writes what the value it has just read gives. -/
theorem counterUpdatesSaturate : Obligations.CounterUpdatesSaturate := by
  intro s hmay
  have hs := (canIssue_iff_mayIssue s).2 hmay
  refine ⟨?_, ?_, fun w c hw hm hlow hhigh => ⟨?_, ?_⟩⟩
  · refine ⟨_, execInhibit_next hs, by simp, sameSequencing_raiseCounter _ s, fun d => by simp,
      fun h => raiseCounter_inRange s h rfl, fun h => ?_⟩
    rw [State.respond_idleCnt, raiseCounter_outside s h]
  · refine ⟨_, execRelease_next hs, by simp, sameSequencing_lowerCounter _ s, fun d => by simp,
      fun h => lowerCounter_inRange s h rfl, fun h => ?_⟩
    rw [State.respond_idleCnt, lowerCounter_outside s h]
  · exact ⟨_, execEnable_oneShot hs hw hm, raiseCounter_inRange (setEn c s) ⟨hlow, hhigh⟩ rfl⟩
  · exact ⟨_, execDisable_oneShot hs hw hm, lowerCounter_inRange (clearHalf c (clearEn c s)) ⟨hlow, hhigh⟩ rfl⟩

/-! ### MAYIDLE and IDLE -/

/-- Settles O24: the response carries the comparison of the counter with the baseline. -/
theorem mayIdleReadsBaseline : Obligations.MayIdleReadsBaseline := by
  refine ⟨decode_eq_ok_iff.2 rfl, fun s hmay => ?_⟩
  have hexec : exec .mayIdle s = _ := execMayIdle_next ((canIssue_iff_mayIssue s).2 hmay)
  rw [hexec, mayIdleValue]
  refine ⟨fun hbase => ?_, fun hbase => ?_⟩
  · rw [if_pos hbase]
    rfl
  · rw [if_neg hbase]
    rfl

/-- Settles O25: IDLE answers, waits or is refused, by the counter and by the context. -/
theorem idleWaitsOnlyAtBaseline : Obligations.IdleWaitsOnlyAtBaseline := by
  intro s hmay
  have hs := (canIssue_iff_mayIssue s).2 hmay
  refine ⟨execIdle_inhibited hs, fun ha hbase => ?_, execIdle_inCallback hs⟩
  refine ⟨{ beginWait s with mainOp := some .w3 }, ?_, rfl, rfl, rfl, rfl, fun d => rfl, rfl, ha, rfl, rfl⟩
  rw [← State.setCmd_of_mainline (by exact ha)]
  exact execIdle_waits hs ha hbase

/-- Settles O34: the ENABLE leaves the counter above the baseline, and there IDLE does not wait. -/
theorem enabledOneShotBlocksIdle : Obligations.EnabledOneShotBlocksIdle := by
  intro s w c hmay ha hw hm hlow hhigh
  have hs := (canIssue_iff_mayIssue s).2 hmay
  have hcnt : (raiseCounter s.idleCnt (setEn c s)).idleCnt.toNat = min (s.idleCnt.toNat + 1) 2000 :=
    raiseCounter_inRange (setEn c s) ⟨hlow, hhigh⟩ rfl
  have hmain : s.idleHold = false ∧ s.mainOp = none := by simpa [State.canIssue, ha] using hs
  refine ⟨_, _, execEnable_oneShot hs hw hm, execIdle_inhibited ?_ ?_ ?_, ?_, ?_, ?_⟩
  · simpa [setEn] using hs
  · simpa using ha
  · rw [State.respond_idleCnt, hcnt]
    omega
  · simpa using hmain.1
  · simpa using hmain.2
  · simp

/-! ### The wake -/

/-- The wake where R145 lets it lift the hold, as a step of its own. -/
theorem step_wake_lifts {s : State} {rest : List Event} (hs : s.schedule = .wake :: rest) (hhold : s.idleHold = true)
    (hwake : s.cfg.wakePolicy = .onInterrupt → s.enteredSinceWait = true) :
    step s = .next { s with idleHold := false, schedule := rest } := by
  rw [step_of_schedule hs]
  exact congrArg Host.Outcome.next (wakeMainline_of_enabled (s := { s with schedule := rest }) hhold hwake)

/-- Settles O27: the wake lifts the hold where its condition holds and changes nothing elsewhere; a handler's entry
sets the bit; after the wake the mainline's `w3` ends IDLE. -/
theorem wakeFollowsPolicy : Obligations.WakeFollowsPolicy := by
  intro s rest hhold
  refine ⟨fun hs hp => ?_, fun hs _ hbit => ?_, fun hs hp hbit => ?_, fun c t hs h => ?_, fun hs hp ha hop => ?_⟩
  · exact step_wake_lifts hs hhold (by simp [hp])
  · exact step_wake_lifts hs hhold fun _ => hbit
  · rw [step_of_schedule hs]
    exact congrArg Host.Outcome.next (wakeMainline_of_not_enabled (s := { s with schedule := rest }) (by simp [hp, hbit]))
  · cases taken_of_step hs (by simp) h with
    | enter => rfl
  · have hwake : s.cfg.wakePolicy = .onInterrupt → s.enteredSinceWait = true := by
      obtain hp | ⟨_, hbit⟩ := hp
      · simp [hp]
      · exact fun _ => hbit
    have hw3 := step_finish_mainline (s := { s with idleHold := false, schedule := .run :: rest })
      (t := { s with idleHold := false, schedule := rest }) ha rfl rfl hop rfl ha
    exact ⟨_, (core_run_succ (step_wake_lifts hs hhold hwake) 1).trans (core_run_succ hw3 0), rfl, rfl, rfl, fun _ => rfl,
      rfl⟩

end Sys2Proof.Machine

/-! O23, O60: the lost updates of R147. A handler whose callback runs one INHIBIT or RELEASE is followed from its entry to
its end, over the context it preempts; then each mainline command, up to its read and from its write. -/

namespace Sys2Proof.Machine

/-! ### A handler and the context it preempts -/

/-- `u` is `s` preempted by the handler of channel `c`, at place `p` of its DISPATCH with no command of its callback in
progress: the contexts, the callbacks and the enable bits of `s` are as they were. -/
structure Preempts (c : Chan) (s : State) (p : Phase) (u : State) : Prop where
  active : ∃ lvl half, u.active = ⟨c, lvl, p, half, none⟩ :: s.active
  mainOp : u.mainOp = s.mainOp
  idleHold : u.idleHold = s.idleHold
  cb : ∀ d, (u.slot d).cb = (s.slot d).cb
  en : ∀ d, (u.slot d).en = (s.slot d).en

section

variable {c : Chan} {s u : State} {rest : List Event}

theorem step_enter (hs : s.schedule = .enter c :: rest) (hc : s.enterable c = true) :
    ∃ v, step s = .next v ∧ v.schedule = rest ∧ Preempts c s .d1 v := by
  refine ⟨enterHandler c { s with schedule := rest }, ?_, rfl, ⟨_, _, rfl⟩, rfl, rfl, fun _ => rfl, fun _ => rfl⟩
  rw [step_of_schedule hs]
  exact if_pos hc

/-- The next micro-step of the DISPATCH of a preempting handler. -/
theorem Preempts.step_run {p : Phase} (h : Preempts c s p u) (hs : u.schedule = .run :: rest) :
    step u = dispatchStep c p { u with schedule := rest } := by
  obtain ⟨_, _, ha⟩ := h.active
  exact step_run_of_dispatch hs ha rfl

/-- A handler that writes a flag of its slot and goes on at another place still preempts the same context. -/
theorem Preempts.modSlot_setPhase {p : Phase} (h : Preempts c s p u) (q : Phase) {f : Slot → Slot}
    (hcb : ∀ x, (f x).cb = x.cb) (hen : ∀ x, (f x).en = x.en) : Preempts c s q ((u.modSlot c f).setPhase q) where
  active := by
    obtain ⟨lvl, half, ha⟩ := h.active
    exact ⟨lvl, half, by rw [State.setPhase_of_handler (by exact ha)]⟩
  mainOp := by simp [h.mainOp]
  idleHold := by simp [h.idleHold]
  cb d := by rw [State.setPhase_slot, State.slot_modSlot_cb _ _ _ _ hcb, h.cb]
  en d := by rw [State.setPhase_slot, State.slot_modSlot_en _ _ _ _ hen, h.en]

theorem Preempts.withSchedule {p : Phase} (h : Preempts c s p u) (l : List Event) :
    Preempts c s p { u with schedule := l } := ⟨h.active, h.mainOp, h.idleHold, h.cb, h.en⟩

theorem Preempts.step_d1 (h : Preempts c s .d1 u) (hs : u.schedule = .run :: rest) :
    ∃ v, step u = .next v ∧ v.schedule = rest ∧ Preempts c s .d2 v :=
  ⟨_, h.step_run hs, by simp, (h.withSchedule rest).modSlot_setPhase .d2 (fun _ => rfl) fun _ => rfl⟩

theorem Preempts.step_d2 (h : Preempts c s .d2 u) (hcb : (s.slot c).cb ≠ cbNone) (hs : u.schedule = .run :: rest) :
    ∃ v, step u = .next v ∧ v.schedule = rest ∧ Preempts c s .callback v := by
  obtain ⟨lvl, half, ha⟩ := h.active
  have hcb' : (u.slot c).cb ≠ cbNone := by rwa [h.cb c]
  refine ⟨_, (h.step_run hs).trans (if_neg hcb'), by simp, ⟨lvl, some (!(u.slot c).half), ?_⟩, by simp [h.mainOp],
    by simp [h.idleHold], fun d => by simp [h.cb d], fun d => by simp [h.en d]⟩
  rw [State.latchFirstHalf_of_handler (by exact ha), State.setPhase_of_handler rfl]
  rfl

/-- The callback runs a whole INHIBIT or RELEASE. -/
theorem Preempts.step_counterCommand {i : Instr} (h : Preempts c s .callback u) (hi : i = .inhibit ∨ i = .release)
    (hs : u.schedule = .command (encode i) :: rest) :
    ∃ v, step u = .next v ∧ v.schedule = rest ∧ Preempts c s .callback v := by
  obtain ⟨lvl, half, ha⟩ := h.active
  have hcan : ({ u with schedule := rest } : State).canIssue = true := by simp [State.canIssue, ha]
  have hpre : ∀ {v : State}, SameSequencing { u with schedule := rest } v → SameSlots { u with schedule := rest } v →
      v.schedule = rest ∧ Preempts c s .callback v := fun hseq hslots =>
    ⟨hseq.schedule, ⟨lvl, half, hseq.active.trans ha⟩, hseq.mainOp.trans h.mainOp, hseq.idleHold.trans h.idleHold,
      fun d => (congrArg Slot.cb (hslots d)).trans (h.cb d), fun d => (congrArg Slot.en (hslots d)).trans (h.en d)⟩
  rw [step_command hs (decode_eq_ok_iff.2 rfl)]
  obtain rfl | rfl := hi
  · exact ⟨_, execInhibit_next hcan, hpre (sameSequencing_raiseCounter _ _) fun d => by simp⟩
  · exact ⟨_, execRelease_next hcan, hpre (sameSequencing_lowerCounter _ _) fun d => by simp⟩

theorem Preempts.step_callbackReturn (h : Preempts c s .callback u) (hs : u.schedule = .callbackReturn :: rest) :
    ∃ v, step u = .next v ∧ v.schedule = rest ∧ Preempts c s .d3 v := by
  obtain ⟨lvl, half, ha⟩ := h.active
  rw [step_of_schedule hs]
  exact ⟨_, callbackReturn_of_waiting (s := { u with schedule := rest }) ha rfl rfl, rfl, ⟨lvl, half, rfl⟩, h.mainOp,
    h.idleHold, h.cb, h.en⟩

theorem Preempts.step_d3 (h : Preempts c s .d3 u) (hs : u.schedule = .run :: rest) :
    ∃ v, step u = .next v ∧ v.schedule = rest ∧ Preempts c s .d4 v :=
  ⟨_, h.step_run hs, by simp, (h.withSchedule rest).modSlot_setPhase .d4 (fun _ => rfl) fun _ => rfl⟩

theorem Preempts.step_d4 (h : Preempts c s .d4 u) (hs : u.schedule = .run :: rest) :
    ∃ v, step u = .next v ∧ v.schedule = rest ∧ v.active = s.active ∧ v.mainOp = s.mainOp ∧ v.idleHold = s.idleHold ∧
      ∀ d, (v.slot d).en = (s.slot d).en := by
  obtain ⟨lvl, half, ha⟩ := h.active
  exact ⟨_, h.step_run hs, rfl, congrArg List.tail ha, h.mainOp, h.idleHold, h.en⟩

/-- The schedule of a handler of channel `c` whose callback runs the command `i` whole, and of nothing else. -/
def handlerEvents (c : Chan) (i : Instr) : List Event :=
  [.enter c, .run, .run, .command (encode i), .callbackReturn, .run, .run]

/-- A handler whose callback runs an INHIBIT or a RELEASE, run to its end, gives the context it preempted back where it
was (R68, R215). -/
theorem run_handlerEvents {i : Instr} (hi : i = .inhibit ∨ i = .release) (hc : s.enterable c = true)
    (hcb : (s.slot c).cb ≠ cbNone) (hs : s.schedule = handlerEvents c i ++ rest) :
    ∃ t, core.run 7 s = .next t ∧ t.schedule = rest ∧ t.active = s.active ∧ t.mainOp = s.mainOp ∧
      t.idleHold = s.idleHold ∧ ∀ d, (t.slot d).en = (s.slot d).en := by
  obtain ⟨_, henter, hs, h⟩ := step_enter hs hc
  obtain ⟨_, hd1, hs, h⟩ := h.step_d1 hs
  obtain ⟨_, hd2, hs, h⟩ := h.step_d2 hcb hs
  obtain ⟨_, hcommand, hs, h⟩ := h.step_counterCommand hi hs
  obtain ⟨_, hreturn, hs, h⟩ := h.step_callbackReturn hs
  obtain ⟨_, hd3, hs, h⟩ := h.step_d3 hs
  obtain ⟨t, hd4, hs, hback⟩ := h.step_d4 hs
  refine ⟨t, ?_, hs, hback⟩
  rw [core_run_succ henter, core_run_succ hd1, core_run_succ hd2, core_run_succ hcommand, core_run_succ hreturn,
    core_run_succ hd3, core_run_succ hd4]
  rfl

end

/-! ### When the handler can be entered -/

/-- Channel `c` alone is pending; it is unmasked, with a callback and a priority above the mainline's. -/
structure AlonePending (s : State) (c : Chan) : Prop where
  ifFlag : (s.slot c).ifFlag = true
  ie : (s.slot c).ie = true
  cb : (s.slot c).cb ≠ cbNone
  ipl : 1 ≤ (s.slot c).ipl.toNat
  others : ∀ d, d ≠ c → (s.slot d).ifFlag = false

/-- A channel that alone is pending can be entered from the mainline, under either policy (R212, R213). -/
theorem AlonePending.enterable {s : State} {c : Chan} (h : AlonePending s c) (ha : s.active = []) :
    s.enterable c = true := by
  refine (enterable_iff s c).2 ⟨⟨h.ifFlag, h.ie, by simp [ha], fun _ => ?_⟩, fun d hd => ?_⟩
  · simpa [State.curLevel, ha] using Nat.lt_of_succ_le h.ipl
  · by_cases hdc : d = c
    · rw [hdc]
    · exact absurd hd.1 (by simp [h.others d hdc])

/-- The write of `EN` does not touch what makes a channel pending. -/
theorem AlonePending.setEn {s : State} {c : Chan} (h : AlonePending s c) (d : Chan) : AlonePending (setEn d s) c where
  ifFlag := by simp [Machine.setEn, State.slot_modSlot_ifFlag, h.ifFlag]
  ie := by simp [Machine.setEn, State.slot_modSlot_ie, h.ie]
  cb := by simpa [Machine.setEn, State.slot_modSlot_cb] using h.cb
  ipl := by simpa [Machine.setEn, State.slot_modSlot_ipl] using h.ipl
  others e he := by simp [Machine.setEn, State.slot_modSlot_ifFlag, h.others e he]

/-! ### The preempted mainline -/

section

variable {s : State} {c : Chan} {rest : List Event}

/-- A mainline INHIBIT or RELEASE from its issue to its read of the counter. -/
theorem run_issue_read {i : Instr} {write : Word → Cont}
    (hread : ∀ u : State, microStep (firstCont i) u = goto (write u.idleCnt) u) (ha : s.active = [])
    (hhold : s.idleHold = false) (hop : s.mainOp = none) (hs : s.schedule = .issue (encode i) :: .run :: rest) :
    core.run 2 s = .next { s with schedule := rest, mainOp := some (write s.idleCnt) } := by
  rw [core_run_succ (step_issue_mainline ha hhold hop hs),
    core_run_succ (step_goto_mainline (by exact ha) (by exact hhold) rfl rfl (hread _) (by exact ha))]
  rfl

/-- A mainline ENABLE of a channel in a one-shot mode from its issue to its read of the counter. -/
theorem run_enable_read {w : Word} {d : Chan} (hw : w.toNat = d.val)
    (hm : (s.slot d).mode = .oneShot ∨ (s.slot d).mode = .oneShotPingPong) (ha : s.active = [])
    (hhold : s.idleHold = false) (hop : s.mainOp = none)
    (hs : s.schedule = .issue (encode (.enable w)) :: .run :: .run :: .run :: .run :: rest) :
    core.run 5 s = .next { setEn d s with schedule := rest, mainOp := some (.i2 s.idleCnt) } := by
  have he1 (u : State) : microStep (.e1 w) u = goto (.e2 d) u := by simp only [microStep, microE1, chan?_eq_some.2 hw]
  have he3 (u : State) (hu : (u.slot d).mode = (s.slot d).mode) : microStep (.e3 d) u = goto .i1 u := by
    rw [microStep, microE3, hu, if_pos (oneShot_iff.2 hm)]
  have hmode : ((setEn d s).slot d).mode = (s.slot d).mode := State.slot_modSlot_mode s d d _ fun _ => rfl
  rw [core_run_succ (step_issue_mainline ha hhold hop hs),
    core_run_succ (step_goto_mainline (by exact ha) (by exact hhold) rfl rfl (he1 _) (by exact ha)),
    core_run_succ (step_goto_mainline (t := setEn d _) (l := .e3 d) (by exact ha) (by exact hhold) rfl rfl rfl
      (by exact ha)),
    core_run_succ (step_goto_mainline (by exact ha) (by exact hhold) rfl rfl (he3 _ (by exact hmode)) (by exact ha)),
    core_run_succ (step_goto_mainline (l := .i2 s.idleCnt) (by exact ha) (by exact hhold) rfl rfl rfl (by exact ha))]
  rfl

/-- A mainline that has read `v`, and is preempted at `i2 v` or `r2 v` by a handler whose callback runs an INHIBIT or a
RELEASE, writes what `v` gives when it resumes, whatever the callback has left in the counter (R147). -/
theorem run_preempted_write {n : Nat} {r : State} {i : Instr} {k : Cont} {v : Word} (hk : k = .i2 v ∨ k = .r2 v)
    (hi : i = .inhibit ∨ i = .release) (hp : AlonePending r c) (ha : r.active = []) (hhold : r.idleHold = false)
    (hread : core.run n s = .next { r with schedule := handlerEvents c i ++ [.run], mainOp := some k }) :
    ∃ t u, core.run (n + 8) s = .next t ∧ t.idleCnt = counterAfter u k ∧ t.active = [] ∧ t.mainOp = none ∧
      ∀ d, (t.slot d).en = (r.slot d).en := by
  obtain ⟨u, hrun, hsched, hactive, hmain, hhold', hen⟩ :=
    run_handlerEvents (s := { r with schedule := handlerEvents c i ++ [.run], mainOp := some k }) hi
      (hp.enterable ha) hp.cb rfl
  have hnil : u.active = [] := hactive.trans ha
  obtain ⟨x, hmicro, hcnt, hx, hslots⟩ : ∃ x, microStep k { u with schedule := [] } = finish none x ∧
      x.idleCnt = counterAfter { u with schedule := [] } k ∧ x.active = [] ∧ ∀ d, x.slot d = u.slot d := by
    obtain rfl | rfl := hk
    · exact ⟨_, rfl, rfl, (raiseCounter_active _ _).trans hnil, raiseCounter_slot _ _⟩
    · exact ⟨_, rfl, rfl, (lowerCounter_active _ _).trans hnil, lowerCounter_slot _ _⟩
  have hlast := step_finish_mainline hnil (hhold'.trans hhold) hsched hmain hmicro hx
  exact ⟨_, _, (core_run_add hread 8).trans ((core_run_add hrun 1).trans (core_run_succ hlast 0)), hcnt, hx, rfl,
    fun d => (congrArg Slot.en (hslots d)).trans (hen d)⟩

end

/-- Settles O23: the mainline resumes at `r2` with the counter it read at `r1`. -/
theorem preemptedReleaseLosesInhibit : Obligations.PreemptedReleaseLosesInhibit := by
  intro s c ha hop hhold hlow hhigh hif hie hcb hipl hothers hs
  have hread := run_issue_read (i := .release) (write := .r2) (fun _ => rfl) ha hhold hop hs
  obtain ⟨t, u, hrun, hcnt, hactive, hmain, _⟩ :=
    run_preempted_write (i := .inhibit) (.inr rfl) (.inl rfl) ⟨hif, hie, hcb, hipl, hothers⟩ ha hhold hread
  have hwritten : t.idleCnt.toNat + 1 = s.idleCnt.toNat := hcnt ▸ lowerCounter_toNat u hlow (by omega)
  exact ⟨t, hrun, by omega, hactive, hmain⟩

/-- Settles O60: the mainline resumes at `i2` with the counter it read at `i1`, in an INHIBIT and in an ENABLE. -/
theorem preemptedInhibitLosesRelease : Obligations.PreemptedInhibitLosesRelease := by
  intro s c ha hop hhold hlow hhigh hif hie hcb hipl hothers
  have hp : AlonePending s c := ⟨hif, hie, hcb, hipl, hothers⟩
  have hwritten (u : State) : (counterAfter u (.i2 s.idleCnt)).toNat = s.idleCnt.toNat + 1 :=
    raiseCounter_toNat u (by omega) hhigh
  refine ⟨fun hs => ?_, fun w d hw hm hs => ?_⟩
  · have hread := run_issue_read (i := .inhibit) (write := .i2) (fun _ => rfl) ha hhold hop hs
    obtain ⟨t, u, hrun, hcnt, hactive, hmain, _⟩ :=
      run_preempted_write (i := .release) (.inl rfl) (.inr rfl) hp ha hhold hread
    exact ⟨t, hrun, hcnt ▸ hwritten u, hactive, hmain⟩
  · have hread := run_enable_read hw hm ha hhold hop hs
    obtain ⟨t, u, hrun, hcnt, hactive, hmain, hen⟩ :=
      run_preempted_write (i := .release) (.inl rfl) (.inr rfl) (hp.setEn d) ha hhold hread
    refine ⟨t, hrun, hcnt ▸ hwritten u, hactive, hmain, ?_⟩
    rw [hen, setEn, State.slot_modSlot_same]

end Sys2Proof.Machine

/-! O29, O30, O31, O32: ENABLE, DISABLE, START and SETPRI run whole (R160 to R168). -/

namespace Sys2Proof.Machine

/-! ### A channel command that reports -/

section

variable {s : State} (hs : s.canIssue = true) {w : Word} (hw : 7 < w.toNat)
include hs hw

/-- A command whose first test is its channel's (R160) reports an invalid one and does nothing else. -/
theorem channelCommand_illegal {op : BitVec 4} {k : Chan → Result} :
    issuing s (match chan? w with
      | none => .next (s.raiseError .invalidChannelId op w)
      | some c => k c) = .next (s.raiseError .invalidChannelId op w) := by
  rw [issuing_of_canIssue hs, chan?_eq_none.2 hw]

theorem execStart_illegalChannel : execStart w s = .next (s.raiseError .invalidChannelId opStart w) :=
  channelCommand_illegal hs hw

theorem execSetPri_illegalChannel (p : Word) :
    execSetPri w p s = .next (s.raiseError .invalidChannelId opSetPri w) :=
  channelCommand_illegal hs hw

end

/-! ### A channel command that writes its slot -/

/-- The end of ENABLE, DISABLE and SETPRI: one slot written, a value stored in the counter, the response `ok`. -/
def slotWritten (c : Chan) (f : Slot → Slot) (counter : Word) (s : State) : State :=
  State.respond { s.modSlot c f with idleCnt := counter } none

@[simp] theorem slotWritten_idleCnt (c : Chan) (f : Slot → Slot) (counter : Word) (s : State) :
    (slotWritten c f counter s).idleCnt = counter := rfl

theorem slotWritten_frame (c : Chan) (f : Slot → Slot) (counter : Word) (s : State) :
    (slotWritten c f counter s).trace = .rsp (.ok none) :: s.trace ∧ SameSequencing s (slotWritten c f counter s) ∧
      SameOtherSlots s (slotWritten c f counter s) c ∧ (slotWritten c f counter s).slot c = f (s.slot c) :=
  ⟨rfl, ⟨rfl, rfl, rfl, rfl, rfl, rfl⟩, fun _ hd => s.slot_modSlot_other f hd, s.slot_modSlot_same c f⟩

/-- The write of INHIBIT commutes with that of a slot. -/
theorem raiseCounter_modSlot (v : Word) (c : Chan) (f : Slot → Slot) (s : State) :
    raiseCounter v (s.modSlot c f) = { s.modSlot c f with idleCnt := (raiseCounter v s).idleCnt } := by
  unfold raiseCounter
  split <;> rfl

/-- The write of RELEASE commutes with that of a slot. -/
theorem lowerCounter_modSlot (v : Word) (c : Chan) (f : Slot → Slot) (s : State) :
    lowerCounter v (s.modSlot c f) = { s.modSlot c f with idleCnt := (lowerCounter v s).idleCnt } := by
  unfold lowerCounter
  split <;> rfl

theorem oneShot_eq_false_iff {m : OpMode} : oneShot m = false ↔ m = .continuous ∨ m = .continuousPingPong := by
  cases m <;> simp [oneShot]

section

variable {s : State} (hs : s.canIssue = true) {w : Word} {c : Chan} (hw : w.toNat = c.val)
include hs hw

theorem execEnable_slotWritten : execEnable w s = .next (slotWritten c (fun x => { x with en := true })
    (if oneShot (s.slot c).mode then (raiseCounter s.idleCnt s).idleCnt else s.idleCnt) s) := by
  rw [execEnable_next hs hw]
  split
  · rw [setEn, raiseCounter_modSlot, slotWritten]
  · rfl

theorem execDisable_slotWritten : execDisable w s = .next (slotWritten c (fun x => { x with en := false, half := false })
    (if oneShot (s.slot c).mode then (lowerCounter s.idleCnt s).idleCnt else s.idleCnt) s) := by
  have hflags : clearHalf c (clearEn c s) = s.modSlot c fun x => { x with en := false, half := false } :=
    s.modSlot_modSlot c _ _
  rw [execDisable_next hs hw, hflags]
  split
  · rw [lowerCounter_modSlot, slotWritten]
  · rfl

theorem execSetPri_slotWritten {p : Word} (hp : 1 ≤ p.toNat ∧ p.toNat ≤ 7) :
    execSetPri w p s = .next (slotWritten c (fun x => { x with ipl := p.setWidth 3 }) s.idleCnt s) :=
  execSetPri_next hs hw hp

end

/-! ### The four commands -/

/-- Settles O29: the slot is written in every mode, the counter in a one-shot mode alone. -/
theorem enableSetsEnAndInhibits : Obligations.EnableSetsEnAndInhibits := by
  intro s w c hmay hw
  obtain ⟨htrace, hseq, hother, hslot⟩ := slotWritten_frame c (fun x => { x with en := true })
    (if oneShot (s.slot c).mode then (raiseCounter s.idleCnt s).idleCnt else s.idleCnt) s
  refine ⟨_, execEnable_slotWritten ((canIssue_iff_mayIssue s).2 hmay) hw, htrace, hseq, hother, hslot,
    fun hm => ?_, fun hm => ?_⟩
  · rw [slotWritten_idleCnt, oneShot_eq_false_iff.2 hm, if_neg Bool.false_ne_true]
  · rw [slotWritten_idleCnt, if_pos (oneShot_iff.2 hm)]
    exact ⟨fun hin => raiseCounter_inRange s hin rfl, fun hout => by rw [raiseCounter_outside s hout]⟩

/-- Settles O30: the slot is written in every mode, the counter in a one-shot mode alone. -/
theorem disableClearsEnHalfAndReleases : Obligations.DisableClearsEnHalfAndReleases := by
  intro s w c hmay hw
  obtain ⟨htrace, hseq, hother, hslot⟩ := slotWritten_frame c (fun x => { x with en := false, half := false })
    (if oneShot (s.slot c).mode then (lowerCounter s.idleCnt s).idleCnt else s.idleCnt) s
  refine ⟨_, execDisable_slotWritten ((canIssue_iff_mayIssue s).2 hmay) hw, htrace, hseq, hother, hslot,
    fun hm => ?_, fun hm => ?_⟩
  · rw [slotWritten_idleCnt, oneShot_eq_false_iff.2 hm, if_neg Bool.false_ne_true]
  · rw [slotWritten_idleCnt, if_pos (oneShot_iff.2 hm)]
    exact ⟨fun hin => lowerCounter_inRange s hin rfl, fun hout => by rw [lowerCounter_outside s hout]⟩

/-- Settles O31: past the channel's test there is the pulse and the response. -/
theorem startPulsesForce : Obligations.StartPulsesForce := by
  intro s w hmay
  have hs := (canIssue_iff_mayIssue s).2 hmay
  exact ⟨decode_eq_ok_iff.2 rfl, fun _ => execStart_next hs, execStart_illegalChannel hs⟩

/-- Settles O32: the three ends of SETPRI; a legal priority fits in the three bits of `IPL`. -/
theorem setPriWritesLegalPriority : Obligations.SetPriWritesLegalPriority := by
  intro s w p hmay
  have hs := (canIssue_iff_mayIssue s).2 hmay
  refine ⟨decode_eq_ok_iff.2 rfl, fun c hw hp => ?_, fun _ => execSetPri_illegal hs,
    fun hw => execSetPri_illegalChannel hs hw p⟩
  obtain ⟨htrace, hseq, hother, hslot⟩ := slotWritten_frame c (fun x => { x with ipl := p.setWidth 3 }) s.idleCnt s
  have hlevel : (p.setWidth 3).toNat = p.toNat := by
    rw [BitVec.toNat_setWidth]
    omega
  exact ⟨_, execSetPri_slotWritten hs hw hp, htrace, hseq, hother, rfl, _, hlevel, hslot⟩

end Sys2Proof.Machine

/-! O37, O39, O33: what sets a channel pending (R180, R181, R192). O41, O43, O45, O44: DISPATCH one micro-step at a time,
from its callback to its end, and over and over (R182 to R191). -/

namespace Sys2Proof.Machine

/-! ### The slots after a write of `IF` or `HALF` -/

@[simp] theorem setIf_slot_same (c : Chan) (s : State) : (setIf c s).slot c = { s.slot c with ifFlag := true } :=
  s.slot_modSlot_same c _

theorem setIf_slot_other {c d : Chan} (s : State) (hd : d ≠ c) : (setIf c s).slot d = s.slot d :=
  s.slot_modSlot_other _ hd

@[simp] theorem clearIf_slot_same (c : Chan) (s : State) : (clearIf c s).slot c = { s.slot c with ifFlag := false } :=
  s.slot_modSlot_same c _

theorem clearIf_slot_other {c d : Chan} (s : State) (hd : d ≠ c) : (clearIf c s).slot d = s.slot d :=
  s.slot_modSlot_other _ hd

@[simp] theorem toggleHalf_slot_same (c : Chan) (s : State) :
    (toggleHalf c s).slot c = { s.slot c with half := !(s.slot c).half } := s.slot_modSlot_same c _

theorem toggleHalf_slot_other {c d : Chan} (s : State) (hd : d ≠ c) : (toggleHalf c s).slot d = s.slot d :=
  s.slot_modSlot_other _ hd

/-! ### The completion event, and an entry that is refused -/

section

variable {s : State} {c : Chan} {rest : List Event}

theorem step_completion (hs : s.schedule = .completion c :: rest) : step s = .next (setIf c { s with schedule := rest }) :=
  step_of_schedule hs

theorem step_enter_of_enterable (hs : s.schedule = .enter c :: rest) (hc : s.enterable c = true) :
    step s = .next (enterHandler c { s with schedule := rest }) := by
  rw [step_of_schedule hs]
  exact if_pos hc

theorem step_enter_of_not_takeable (hs : s.schedule = .enter c :: rest) (hc : ¬ Takeable s c) :
    step s = .refused .stepNotEnabled := by
  rw [step_of_schedule hs]
  exact if_neg fun he => hc ((enterable_iff _ c).1 he).1

theorem not_takeable_of_masked (hie : (s.slot c).ie = false) : ¬ Takeable s c := fun ⟨_, hunmasked, _⟩ =>
  Bool.false_ne_true (hie.symm.trans hunmasked)

/-- A handler is not entered again while it is in `ACTIVE` (R212). -/
theorem not_takeable_of_active {h : Handler} (hh : h ∈ s.active) : ¬ Takeable s h.chan := fun ⟨_, _, hnotActive, _⟩ =>
  hnotActive h hh rfl

end

/-- Settles O37: the event is one write of one flag. -/
theorem completionEventOnlySetsPending : Obligations.CompletionEventOnlySetsPending := fun _ c _ hs =>
  ⟨_, step_completion hs, setIf_slot_same c _, fun _ hd => setIf_slot_other _ hd, rfl, rfl, rfl, rfl, rfl, rfl⟩

/-- Settles O39: the event does not write `IE`, and a masked channel is not takeable. -/
theorem maskedChannelIsNeverEntered : Obligations.MaskedChannelIsNeverEntered := by
  intro s c rest hie
  refine ⟨fun hs => ?_, fun hs => step_enter_of_not_takeable hs (not_takeable_of_masked hie)⟩
  have hmasked : ((setIf c { s with schedule := rest }).slot c).ie = false := by simp [hie]
  exact ⟨_, step_completion hs, by simp, by simp, hmasked, rfl, not_takeable_of_masked hmasked⟩

theorem execComplete_illegalChannel {s : State} (hs : s.canIssue = true) {w : Word} (hw : 7 < w.toNat) :
    execComplete w s = .next (s.raiseError .invalidChannelId opComplete w) := channelCommand_illegal hs hw

/-- Settles O33: the two ends of COMPLETE. -/
theorem completeSetsPending : Obligations.CompleteSetsPending := by
  intro s w hmay
  have hs := (canIssue_iff_mayIssue s).2 hmay
  exact ⟨decode_eq_ok_iff.2 rfl, fun c hw => ⟨_, execComplete_next hs hw, rfl, ⟨rfl, rfl, rfl, rfl, rfl, rfl⟩,
    fun _ hd => setIf_slot_other s hd, setIf_slot_same c s, rfl⟩, execComplete_illegalChannel hs⟩

/-! ### The micro-steps of DISPATCH -/

section

variable {s : State} {h : Handler} {below : List Handler} {rest : List Event} (ha : s.active = h :: below)
  (hc : h.cmd = none)
include ha hc

section

variable (hs : s.schedule = .run :: rest)
include hs

theorem step_run_d1 (hp : h.phase = .d1) : step s =
    .next { clearIf h.chan s with schedule := rest, active := { h with phase := .d2 } :: below } := by
  rw [step_run_of_dispatch hs ha hc, hp, dispatchStep, microD1, State.setPhase_of_handler (by exact ha)]
  rfl

theorem step_run_d2 (hp : h.phase = .d2) (hcb : (s.slot h.chan).cb ≠ cbNone) : step s =
    .next { s with
      schedule := rest
      active := { h with phase := .callback, firstHalf := some (!(s.slot h.chan).half) } :: below
      trace := .cbCall (s.slot h.chan).cb h.chan (!(s.slot h.chan).half) :: s.trace } := by
  rw [step_run_of_dispatch hs ha hc, hp]
  refine (if_neg hcb).trans ?_
  rw [State.latchFirstHalf_of_handler (by exact ha), State.setPhase_of_handler rfl]
  rfl

theorem step_run_d2_noCallback (hp : h.phase = .d2) (hcb : (s.slot h.chan).cb = cbNone) :
    step s = .fault (.noCallback h.chan) := by
  rw [step_run_of_dispatch hs ha hc, hp]
  exact if_pos hcb

theorem step_run_callback (hp : h.phase = .callback) : step s = .refused .stepNotEnabled := by
  rw [step_run_of_dispatch hs ha hc, hp, dispatchStep]

theorem step_run_d3 (hp : h.phase = .d3) : step s =
    .next { toggleHalf h.chan s with schedule := rest, active := { h with phase := .d4 } :: below } := by
  rw [step_run_of_dispatch hs ha hc, hp, dispatchStep, microD3, State.setPhase_of_handler (by exact ha)]
  rfl

theorem step_run_d4 (hp : h.phase = .d4) : step s = .next { s with schedule := rest, active := below } := by
  rw [step_run_of_dispatch hs ha hc, hp, dispatchStep, microD4, leaveHandler, ha]
  rfl

end

/-- From its callback's return on, a handler toggles `HALF` and leaves; the slot is otherwise as the callback and the events
during it have left it (R183, R188). -/
theorem run_callbackReturn (hp : h.phase = .callback) (hs : s.schedule = .callbackReturn :: .run :: .run :: rest) :
    core.run 3 s = .next { toggleHalf h.chan s with schedule := rest, active := below } := by
  have hreturn : step s = .next { s with schedule := .run :: .run :: rest, active := { h with phase := .d3 } :: below } := by
    rw [step_of_schedule hs]
    exact callbackReturn_of_waiting (by exact ha) hp hc
  rw [core_run_succ hreturn, core_run_succ (step_run_d3 (h := { h with phase := .d3 }) rfl hc rfl rfl),
    core_run_succ (step_run_d4 (h := { h with phase := .d4 }) rfl hc rfl rfl)]
  rfl

end

/-- Settles O41: the phases in order, each with the state it leaves. -/
theorem dispatchMicroSteps : Obligations.DispatchMicroSteps := fun s h _ _ ha hc hs =>
  ⟨fun hp => ⟨_, step_run_d1 ha hc hs hp, clearIf_slot_same h.chan s, fun _ hd => clearIf_slot_other s hd, rfl, rfl, rfl,
      rfl, rfl, rfl⟩,
    fun hp hcb => ⟨_, step_run_d2 ha hc hs hp hcb, rfl, fun _ => rfl, rfl, rfl, rfl, rfl, rfl⟩,
    step_run_d2_noCallback ha hc hs,
    step_run_callback ha hc hs,
    fun hp => ⟨_, step_run_d3 ha hc hs hp, toggleHalf_slot_same h.chan s, fun _ hd => toggleHalf_slot_other s hd, rfl, rfl,
      rfl, rfl, rfl, rfl⟩,
    fun hp => ⟨_, step_run_d4 ha hc hs hp, rfl, fun _ => rfl, rfl, rfl, rfl, rfl, rfl⟩⟩

/-! ### What happens during the callback -/

/-- Settles O43: the handler's return does not clear `IF`, and until then its channel is in `ACTIVE`. -/
theorem eventDuringCallbackIsKept : Obligations.EventDuringCallbackIsKept := by
  intro s h below ha hp hc _ hs
  have hpending (u : State) : ((toggleHalf h.chan (setIf h.chan u)).slot h.chan).ifFlag = true := by simp
  exact ⟨_, (core_run_succ (step_completion hs) 3).trans (run_callbackReturn (by exact ha) hc hp rfl), hpending _, rfl,
    fun rest => step_enter_of_not_takeable rfl (not_takeable_of_active (h := h) (by simp [ha]))⟩

/-- Settles O45: DISABLE clears `EN` and `HALF`, and `d3` toggles that `HALF`. -/
theorem selfDisableLeavesBNext : Obligations.SelfDisableLeavesBNext := by
  intro s h below w ha hp hc hw hs
  have hcan : ({ s with schedule := [.callbackReturn, .run, .run] } : State).canIssue = true := by
    simp [State.canIssue, ha, hp, hc]
  have hstep := (step_command hs (decode_eq_ok_iff.2 rfl)).trans (execDisable_slotWritten hcan hw)
  have hslot (u : State) (counter : Word) :
      (toggleHalf h.chan (slotWritten h.chan (fun x => { x with en := false, half := false }) counter u)).slot h.chan =
        { u.slot h.chan with en := false, half := true } := by
    obtain ⟨_, _, _, hwritten⟩ := slotWritten_frame h.chan (fun x => { x with en := false, half := false }) counter u
    rw [toggleHalf_slot_same, hwritten]
    rfl
  exact ⟨_, (core_run_succ hstep 3).trans (run_callbackReturn (by exact ha) hc hp rfl), congrArg Slot.en (hslot _ _),
    congrArg Slot.half (hslot _ _), rfl⟩

/-! ### One DISPATCH after another -/

/-- One completion event, and the DISPATCH it leads to, with a callback that issues no command. -/
def dispatchEvents (c : Chan) : List Event := [.completion c, .enter c, .run, .run, .callbackReturn, .run, .run]

/-- What `dispatchEvents c` leaves, with `rest` to follow: the callback has been called, and `HALF` toggled. -/
def dispatched (c : Chan) (rest : List Event) (s : State) : State :=
  { toggleHalf c (clearIf c (setIf c s)) with
    enteredSinceWait := true
    schedule := rest
    trace := .cbCall (s.slot c).cb c (!(s.slot c).half) :: s.trace }

@[simp] theorem dispatched_slot_same (c : Chan) (rest : List Event) (s : State) :
    (dispatched c rest s).slot c = { s.slot c with half := !(s.slot c).half, ifFlag := false } := by
  show (toggleHalf c (clearIf c (setIf c s))).slot c = _
  simp

theorem dispatched_slot_other {c d : Chan} (rest : List Event) (s : State) (hd : d ≠ c) :
    (dispatched c rest s).slot d = s.slot d := by
  show (toggleHalf c (clearIf c (setIf c s))).slot d = _
  rw [toggleHalf_slot_other _ hd, clearIf_slot_other _ hd, setIf_slot_other _ hd]

section

variable {s : State} {c : Chan}

theorem run_dispatchEvents {rest : List Event} (ha : s.active = []) (hp : AlonePending (setIf c s) c)
    (hs : s.schedule = dispatchEvents c ++ rest) : core.run 7 s = .next (dispatched c rest s) := by
  have hcb : ((clearIf c (setIf c s)).slot c).cb = (s.slot c).cb := by simp
  have hhalf : ((clearIf c (setIf c s)).slot c).half = (s.slot c).half := by simp
  have hregistered : ((clearIf c (setIf c s)).slot c).cb ≠ cbNone := by simpa using hp.cb
  rw [core_run_succ (step_completion hs), core_run_succ (step_enter_of_enterable rfl (by exact hp.enterable ha)),
    core_run_succ (step_run_d1 (h := ⟨c, _, .d1, none, none⟩) rfl rfl rfl rfl),
    core_run_succ (step_run_d2 (h := ⟨c, _, .d2, none, none⟩) rfl rfl rfl rfl (by exact hregistered)),
    run_callbackReturn (h := ⟨c, _, .callback, _, none⟩) rfl rfl rfl rfl, dispatched, ← hcb, ← hhalf]
  rfl

/-- The state after `n` dispatches of channel `c` from the state `s`: nothing runs, an event on `c` can be taken, and
the callback has been called `n` times (R191). -/
structure AfterDispatches (c : Chan) (s : State) (n : Nat) (t : State) : Prop where
  active : t.active = []
  ready : AlonePending (setIf c t) c
  cb : (t.slot c).cb = (s.slot c).cb
  half : (t.slot c).half = (n % 2 == 1)
  trace : t.trace = ((List.range n).map fun j => Output.cbCall (s.slot c).cb c (j % 2 == 0)).reverse ++ s.trace

/-- What the next DISPATCH passes for `is_first_half` (R182, R191). -/
theorem AfterDispatches.firstHalf {n : Nat} {t : State} (h : AfterDispatches c s n t) :
    (!(t.slot c).half) = (n % 2 == 0) := by
  rw [h.half]
  rcases Nat.mod_two_eq_zero_or_one n with hn | hn <;> simp [hn]

/-- One more dispatch calls the callback with the half that is next and makes the other half next (R184). -/
theorem AfterDispatches.succ {n : Nat} {t : State} (h : AfterDispatches c s n t) (rest : List Event) :
    AfterDispatches c s (n + 1) (dispatched c rest t) where
  active := h.active
  ready :=
    { ifFlag := by simp
      ie := by simpa using h.ready.ie
      cb := by simpa using h.ready.cb
      ipl := by simpa using h.ready.ipl
      others := fun d hd => by
        rw [setIf_slot_other _ hd, dispatched_slot_other _ _ hd, ← setIf_slot_other t hd, h.ready.others d hd] }
  cb := by simp [h.cb]
  half := by
    rw [dispatched_slot_same, h.firstHalf, Bool.eq_iff_iff]
    simp [Nat.succ_mod_two_eq_one_iff]
  trace := by
    rw [List.range_succ, List.map_append, List.reverse_append]
    show Output.cbCall _ c _ :: t.trace = _
    rw [h.cb, h.firstHalf, h.trace]
    rfl

theorem run_dispatches (h : AfterDispatches c s 0 s) (n : Nat) {rest : List Event}
    (hs : s.schedule = (List.replicate n (dispatchEvents c)).flatten ++ rest) :
    ∃ t, core.run (7 * n) s = .next t ∧ t.schedule = rest ∧ AfterDispatches c s n t := by
  induction n generalizing rest with
  | zero => exact ⟨s, rfl, hs, h⟩
  | succ n ih =>
    rw [List.replicate_succ', List.flatten_append, List.append_assoc, List.flatten_singleton] at hs
    obtain ⟨t, hrun, hsched, ht⟩ := ih hs
    exact ⟨_, (core_run_add hrun 7).trans (run_dispatchEvents ht.active ht.ready hsched), rfl, ht.succ rest⟩

end

/-- Settles O44, by induction on the number of dispatches: each leaves what the next one starts from. -/
theorem dispatchesAlternateHalves : Obligations.DispatchesAlternateHalves := by
  intro n s c ha hhalf hie hcb hipl hothers hs
  have hready : AlonePending (setIf c s) c :=
    ⟨by simp, by simpa using hie, by simpa using hcb, by simpa using hipl,
      fun d hd => by rw [setIf_slot_other s hd, hothers d hd]⟩
  obtain ⟨t, hrun, _, ht⟩ := run_dispatches ⟨ha, hready, rfl, hhalf, rfl⟩ n (hs.trans (List.append_nil _).symm)
  exact ⟨t, hrun, ht.trace, ht.half⟩

end Sys2Proof.Machine

/-! O13, O36, O28, O38: the depth of nesting (R215), the reports and responses of one command (R200 to R204), the entry of
a handler (R212 to R214). -/

namespace Sys2Proof.Machine

/-! ### The depth of nesting -/

/-- R215: levels from 1 to 7 that rise strictly inward are at most seven. -/
theorem length_le_seven_of_levels {k : Config} {l : List Handler} (hlegal : ∀ h ∈ l, HandlerLegal k h)
    (hrise : l.Pairwise fun inner outer => outer.lvl.toNat < inner.lvl.toNat) : l.length ≤ 7 := by
  have hdistinct : (l.map fun h => h.lvl.toNat).Nodup := List.pairwise_map.2 (hrise.imp fun hlt => hlt.ne')
  have hrange : (l.map fun h => h.lvl.toNat) ⊆ List.range' 1 7 := by
    intro n hn
    obtain ⟨h, hh, rfl⟩ := List.mem_map.1 hn
    exact List.mem_range'_1.2 ⟨(hlegal h hh).lvl, h.lvl.isLt⟩
  simpa using (hdistinct.subperm hrange).length_le

/-- Settles O13: the handlers have different channels and, under `priority`, different levels from 1 to 7. -/
theorem nestingDepthBounded : Obligations.NestingDepthBounded := fun _ hi =>
  ⟨by simpa using hi.distinct.length_le_card, fun hp => length_le_seven_of_levels hi.handlers (hi.levels hp)⟩

/-! ### One command, one report, one response -/

theorem CommandEmits.atMostOne_and_aborted_iff {legal : Bool} {out : List Output} (h : CommandEmits legal out) :
    errorReports out ≤ 1 ∧ responses out ≤ 1 ∧ (.rsp .aborted ∈ out ↔ errorReports out = 1) := by
  cases h <;> simp [errorReports, responses]

/-- Settles O36: what a command adds is one of the four lists of `CommandEmits`. -/
theorem atMostOneReportPerCommand : Obligations.AtMostOneReportPerCommand := fun _ _ _ h =>
  let ⟨out, htrace, hout⟩ := exec_addsOutputs h
  ⟨out, htrace, hout.atMostOne_and_aborted_iff⟩

/-! ### An invalid channel -/

section

variable {s : State} (hs : s.canIssue = true) {w : Word} (hw : 7 < w.toNat)
include hs hw

theorem execEnable_illegalChannel : execEnable w s = .next (s.raiseError .invalidChannelId opEnable w) :=
  channelCommand_illegal hs hw

theorem execDisable_illegalChannel : execDisable w s = .next (s.raiseError .invalidChannelId opDisable w) :=
  channelCommand_illegal hs hw

end

/-- Settles O28: in each of the six commands the channel's test is the first. -/
theorem invalidChannelReportedAlone : Obligations.InvalidChannelReportedAlone := by
  intro s w hmay hw
  have hs := (canIssue_iff_mayIssue s).2 hmay
  refine ⟨?configure, execEnable_illegalChannel hs hw, execDisable_illegalChannel hs hw,
    execStart_illegalChannel hs hw, execSetPri_illegalChannel hs hw, execComplete_illegalChannel hs hw⟩
  rintro o rfl
  exact execConfigure_illegalChannel hs hw

/-! ### The entry of a handler -/

theorem step_enter_of_not_enterable {s : State} {c : Chan} {rest : List Event} (hs : s.schedule = .enter c :: rest)
    (hc : ¬ s.enterable c = true) : step s = .refused .stepNotEnabled := by
  rw [step_of_schedule hs]
  exact if_neg hc

/-- Settles O38: the entry's condition is that of R212 and R213, and what it does is `enterHandler`. -/
theorem handlerEntryFollowsArbitration : Obligations.HandlerEntryFollowsArbitration := by
  intro s c rest hs
  rw [← enterable_iff]
  exact ⟨fun hc => ⟨_, step_enter_of_enterable hs hc, rfl, fun _ => rfl, rfl, rfl, rfl, rfl, rfl⟩,
    step_enter_of_not_enterable hs⟩

end Sys2Proof.Machine

/-! O40, O1, O2: what a reset pulse leaves (R55, R240, R241), and a pending event at a CONFIGURE (R117, R242, R251). -/

namespace Sys2Proof.Machine

/-! ### A pending event at a CONFIGURE -/

theorem State.curLevel_of_mainline {s : State} (h : s.active = []) : s.curLevel = 0 := by
  rw [State.curLevel, h]

/-- In the mainline nothing but the two flags and a priority of at least 1 is asked of a takeable channel (R212). -/
theorem takeable_of_mainline {s : State} {c : Chan} (hact : s.active = []) (hif : (s.slot c).ifFlag = true)
    (hie : (s.slot c).ie = true) (hipl : 1 ≤ (s.slot c).ipl.toNat) : Takeable s c := by
  refine ⟨hif, hie, by simp [hact], fun _ => ?_⟩
  rw [State.curLevel_of_mainline hact]
  exact hipl

theorem not_takeable_of_not_pending {s : State} {c : Chan} (hif : (s.slot c).ifFlag = false) : ¬ Takeable s c :=
  fun ⟨hpending, _⟩ => Bool.false_ne_true (hif.symm.trans hpending)

/-- Settles O40: CONFIGURE keeps a pending event and unmasks its line for a callback; without one it clears the event. -/
theorem staleEventMeetsNewCallback : Obligations.StaleEventMeetsNewCallback := by
  intro s o c a b hmay hact hw hl ht ha hb hif hipl
  obtain ⟨t, hnext, -, hseq, -, -, -, hen, -, -, -, -, -, hie, hif', -, hipl'⟩ :=
    configureAppliesWholeBundle s o c a b hmay hw hl ht ha hb
  refine ⟨t, hnext, hen, fun hcb => ?_, fun hcb => ?_⟩
  · rw [if_neg hcb, hif] at hif'
    exact takeable_of_mainline (hseq.active.trans hact) hif' (hie.2 hcb) (by rwa [hipl'])
  · rw [if_pos hcb] at hif'
    exact ⟨hif', not_takeable_of_not_pending hif'⟩

/-! ### The reset state -/

theorem slot_resetBlock (s : State) (c : Chan) : (resetBlock s).slot c = resetSlot s.cfg := slot_resetWith s.cfg c

theorem mayIssue_resetWith (k : Config) : MayIssue (State.resetWith k) := .inl ⟨rfl, rfl, rfl⟩

/-- Settles O1: the pulse replaces the block's state by `resetBlock`, whose slots are all `resetSlot`. -/
theorem resetPulseRestoresResetState : Obligations.ResetPulseRestoresResetState := by
  intro s rest hs
  refine ⟨_, step_of_schedule hs, rfl, rfl, rfl, rfl, rfl, fun c => ?_⟩
  rw [slot_resetBlock]
  exact ⟨rfl, rfl, rfl, rfl, rfl, rfl, rfl, rfl, rfl, rfl, rfl, rfl, rfl, rfl, rfl, rfl, rfl⟩

/-- Settles O2: the counter is at the baseline, so MAYIDLE answers 1, and with nothing scheduled the block waits. -/
theorem afterResetBlockIsQuiet : Obligations.AfterResetBlockIsQuiet := by
  intro k
  obtain ⟨-, hmayIdle⟩ := mayIdleReadsBaseline
  refine ⟨rfl, rfl, fun c => ?_, rfl, ⟨_, (hmayIdle _ (mayIssue_resetWith k)).1 rfl, rfl⟩, step_of_nil rfl⟩
  rw [slot_resetWith]
  exact ⟨rfl, rfl, rfl, rfl⟩

end Sys2Proof.Machine

/-! O53: who writes the configuration fields and the callback of a slot (10_state.md section 2). -/

namespace Sys2Proof.Machine

/-- The part of a slot that CONFIGURE stores from its operands: the eleven configuration fields and `CB`, with the flags
`EN`, `HALF`, `IE`, `IF` and the priority `IPL` blanked. Two slots agree on those twelve fields iff this is equal. -/
def Slot.config (x : Slot) : Slot := { x with en := false, half := false, ie := false, ifFlag := false, ipl := 0 }

/-- The micro-steps of a CONFIGURE that store one of these fields. -/
def configStores (l : ConfigLocals) : List Cont :=
  [.c2 l, .c3 l, .c4 l, .c5 l, .c6 l, .c7 l, .c8 l, .c9 l, .c10 l, .c11 l, .c12 l, .c13 l]

theorem Slot.config_eq_iff {x y : Slot} :
    y.config = x.config ↔ y.req = x.req ∧ y.size = x.size ∧ y.dir = x.dir ∧ y.timing = x.timing ∧ y.nullw = x.nullw ∧
      y.amode = x.amode ∧ y.mode = x.mode ∧ y.sta = x.sta ∧ y.stb = x.stb ∧ y.pad = x.pad ∧ y.cnt = x.cnt ∧
      y.cb = x.cb := by
  simp [Slot.config]

/-- A write of flags alone keeps the configuration of every slot. -/
theorem State.slot_modSlot_config (s : State) (c d : Chan) (f : Slot → Slot) (h : ∀ x, (f x).config = x.config) :
    ((s.modSlot c f).slot d).config = (s.slot d).config := by
  rw [State.slot_modSlot]
  split
  · rename_i hd
    rw [hd, h]
  · rfl

/-- A micro-step that writes a slot stores a configuration field of a CONFIGURE, or writes a flag or the priority. -/
theorem slotWrite_config {cfg : Config} {k : Cont} {c : Chan} {f : Slot → Slot} (hw : slotWrite cfg k = some (c, f)) :
    (∃ l : ConfigLocals, l.chan = c ∧ k ∈ configStores l) ∨ ∀ x, (f x).config = x.config := by
  unfold slotWrite at hw
  split at hw
  case h_9 l | h_10 l =>
    obtain ⟨_, _, hw⟩ := Option.map_eq_some_iff.1 hw
    cases hw
    exact .inl ⟨l, rfl, by simp [configStores]⟩
  case h_2 l | h_3 l | h_4 l | h_5 l | h_6 l | h_7 l | h_8 l | h_11 l | h_12 l | h_13 l =>
    cases hw
    exact .inl ⟨l, rfl, by simp [configStores]⟩
  case h_15 =>
    split at hw <;> cases hw
    exact .inr fun _ => rfl
  case h_21 => cases hw
  all_goals
    cases hw
    exact .inr fun _ => rfl

section

variable {s t : State} {c : Chan}

theorem microStep_config {k : Cont} (h : microStep k s = .next t) :
    (∃ l : ConfigLocals, l.chan = c ∧ k ∈ configStores l) ∨ (t.slot c).config = (s.slot c).config := by
  rw [microStep_slot h c]
  cases hw : slotWrite s.cfg k with
  | none => exact .inr rfl
  | some p =>
    dsimp only
    split
    · rename_i hc
      subst hc
      exact (slotWrite_config hw).imp_right fun hf => hf _
    · exact .inr rfl

theorem dispatchStep_config {d : Chan} {p : Phase} (h : dispatchStep d p s = .next t) :
    (t.slot c).config = (s.slot c).config := by
  obtain ⟨_, rfl⟩ | ⟨_, _, rfl⟩ | ⟨_, rfl⟩ | ⟨_, rfl⟩ := dispatchStep_cases h
  · rw [State.setPhase_slot]
    exact s.slot_modSlot_config d c _ fun _ => rfl
  · simp
  · rw [State.setPhase_slot]
    exact s.slot_modSlot_config d c _ fun _ => rfl
  · rfl

theorem exec_config {i : Instr} (h : exec i s = .next t) :
    (∃ o : ConfigOperands, i = .configure o ∧ o.channel.toNat = c.val) ∨ (t.slot c).config = (s.slot c).config := by
  obtain ht | ⟨o, hi, ho, _⟩ | ⟨_, _, _, ht⟩ | ⟨_, _, _, ht⟩ | ⟨_, _, _, _, ht⟩ | ⟨_, _, _, ht⟩ := exec_slot h c
  case inr.inl => exact .inl ⟨o, hi, ho⟩
  all_goals exact .inr (ht ▸ rfl)

/-- Every entry but a whole CONFIGURE of channel `c` and a micro-step that stores a field of one keeps the configuration
of slot `c`. -/
theorem Taken.config {e : Event} (h : Taken s e t) (c : Chan) :
    (∃ o, e = .command (encode (.configure o)) ∧ o.channel.toNat = c.val) ∨
    (e = .run ∧ ∃ l : ConfigLocals, l.chan = c ∧ s.runningCmd ∈ (configStores l).map some) ∨
    (t.slot c).config = (s.slot c).config := by
  cases h with
  | completion d => exact .inr (.inr (s.slot_modSlot_config d c _ fun _ => rfl))
  | enter => exact .inr (.inr rfl)
  | micro k hk hm =>
    rw [hk]
    exact .inr ((microStep_config hm).imp_left fun ⟨l, hl, hmem⟩ => ⟨rfl, l, hl, List.mem_map_of_mem hmem⟩)
  | dispatch hd below ha hc hm => exact .inr (.inr (dispatchStep_config hm))
  | issue i hm =>
    obtain ⟨_, rfl⟩ := issueCommand_cases hm
    exact .inr (.inr (by simp))
  | command i hm => exact (exec_config hm).imp (fun ⟨o, hi, ho⟩ => ⟨o, by rw [hi], ho⟩) .inr
  | callbackReturn hm =>
    obtain ⟨_, _, _, _, _, rfl⟩ := callbackReturn_cases hm
    exact .inr (.inr rfl)
  | wake => exact .inr (.inr (by simp))

end

/-- Settles O53: a step that keeps the configuration of slot `c` changes none of the twelve fields, so by `Taken.config`
a step that changes one is of a CONFIGURE of `c`. -/
theorem configurationWrittenOnlyByConfigure : Obligations.ConfigurationWrittenOnlyByConfigure := by
  intro s t e rest c hs he h hne
  obtain hwhole | hmicro | hkept := (taken_of_step hs he h).config c
  · exact .inl hwhole
  · exact .inr hmicro
  · rw [slot_schedule, Slot.config_eq_iff] at hkept
    tauto

end Sys2Proof.Machine
